-- ==== Sys2Proof/Word.lean ====
section
/-!
DEFINITION. The two value widths of the block (spec 00_scope.md R12, R13): bytes are 8 bits; command words, operands,
results, counter values, counts, durations, bitrates and the frame period are 32 bits, unsigned.
-/

namespace Sys2Proof

/-- R12: "A byte is 8 bits." -/
abbrev Byte := BitVec 8

/-- R12: the 32-bit unsigned width of counter values, durations, operands, results and command words. -/
abbrev Word := BitVec 32

end Sys2Proof
end

