-- ==== Sys2Proof/Syntax.lean ====
section
/-!
DEFINITION. The 35 commands of spec/opcode_table.json (30_encoding.md R90 to R97) as one inductive type, with the operand
fields of the command word as named constructors. OPA, OPB and DIN are no part of the command word (R96, R105): a meaning
reads them from the command port.
-/

namespace Sys2Proof

/-- R92: INST = SEL[0] of a BUF.* command, 0 selects `tx` and 1 selects `rx`. -/
inductive BufId where
  | tx
  | rx
  deriving DecidableEq, Repr

/-- R95: the PAR field, LC[5:4]. The value 3 is reserved; it decodes, and validation rejects it (R100). -/
inductive ParField where
  | none
  | even
  | odd
  | reserved
  deriving DecidableEq, Repr

/-- R95: the STOP field, LC[7:6]. The values 2 and 3 are reserved; they decode, and validation rejects them (R100). -/
inductive StopField where
  | one
  | two
  | reserved2
  | reserved3
  deriving DecidableEq, Repr

/-- R95: the FLOW field, LC[9:8]. Every value but `none` decodes, and validation rejects it (R100, R8). -/
inductive FlowField where
  | none
  | hw
  | sw
  | reserved
  deriving DecidableEq, Repr

/-- R95: a line configuration LC as it stands in IMM[9:0] of UART.SETUP and UART.CREATE. The bitrate is in OPA. -/
structure LineReq where
  dbits : BitVec 4
  par : ParField
  stop : StopField
  flow : FlowField
  deriving DecidableEq, Repr

/-- R97: the opcode map, one constructor per row of spec/opcode_table.json, in the table's order. A byte operand is
IMM[7:0] (R93); a count operand is IMM[15:0] (R94). -/
inductive Instr where
  | bufClear (b : BufId)
  | bufPush (b : BufId) (v : Byte)
  | bufPop (b : BufId)
  | bufFront (b : BufId)
  | bufEmpty (b : BufId)
  | bufFull (b : BufId)
  | bufSize (b : BufId)
  | bufAvail (b : BufId)
  | bufMaxsize (b : BufId)
  | ctrNow
  | ctrNs2cnt
  | ctrUs2cnt
  | ctrMs2cnt
  | ctrDiff
  | ctrTimeout
  | ctrWaitns
  | ctrWaitus
  | ctrWaitms
  | ctrMeasns
  | ctrMeasus
  | ctrMeasms
  | uartSetup (lc : LineReq)
  | uartGet
  | uartPut (v : Byte)
  | uartRead (n : Nat)
  | uartWrite (n : Nat)
  | uartClear
  | uartFlush
  | uartFrameperiod
  | uartOverrun
  | uartFraming
  | uartParity
  | uartCreate (lc : LineReq)
  | uartDestroy
  | uartService
  deriving DecidableEq, Repr

end Sys2Proof
end

