-- ==== Sys2Proof/Config.lean ====
section
/-!
DEFINITION. What one instance of the block fixes (00_scope.md R11: the instance parameters) and the free values: what the
spec leaves to `draw()`, to the scheduler and to the environment (93_implementation_defined.md U10, U22, U26, U27, U36).
A free value is an opaque constant without a body: no proof can use any value of it.
-/

namespace Sys2Proof

/-- R3, R11: `PLATFORM`. -/
inductive Platform where
  | nios
  | microblaze
  deriving DecidableEq, Repr

/-- R11, R140: `CTR_DIR`, the counting direction. -/
inductive CtrDir where
  | up
  | down
  deriving DecidableEq, Repr

/-- R11, R237: `ERR_CLEAR`, how the handler clears the device error latch. -/
inductive ErrClear where
  | writeStatusZero
  | resetRxFifo
  deriving DecidableEq, Repr

/-- R29: a validated parity setting. -/
inductive Parity where
  | none
  | even
  | odd
  deriving DecidableEq, Repr, Inhabited

/-- R29: a validated number of stop bits. -/
inductive StopBits where
  | one
  | two
  deriving DecidableEq, Repr, Inhabited

/-- R29: a validated line configuration `{bitrate, dbits, par, stop}`; also an entry of ALLOW (R11, R173). -/
structure LineConfig where
  bitrate : Word
  dbits : BitVec 4
  par : Parity
  stop : StopBits
  deriving DecidableEq, Repr, Inhabited

/-- R232: DEV_MAP, the register offsets, the bit positions of the status flags in the status word, and the physical bits
of each enable in the control word (a position may list several bits). `rstRx` is the bit RST_RX of R237, which only a
device with ERR_CLEAR = RESET_RX_FIFO has. -/
structure DevMap where
  offRx : Word
  offTx : Word
  offStatus : Word
  offCtrl : Word
  offDiv : Word
  rrdy : Nat
  trdy : Nat
  txEmpty : Nat
  tmt : Nat
  pe : Nat
  fe : Nat
  roe : Nat
  rxe : List Nat
  txe : List Nat
  erre : List Nat
  rstRx : Option Nat
  deriving DecidableEq, Repr

/-- R11, R238: one value of an instance's DIVISOR, the divisor for a clock frequency and a bitrate. -/
structure DivisorEntry where
  clkHz : Word
  bitrate : Word
  value : Word
  deriving DecidableEq, Repr

/-- R11: the parameters of one instance. CTR_WIDTH is 32 (R12, the width of `Word`); IRQ is NONE or a pair (controller id,
line). ALLOW(PLATFORM) is held as one list per platform. DIVISOR, a function, is held as the table of its values, in plain
data (`Machine.divisor` reads it; DESIGN CHOICE, log entry 10). -/
structure Params where
  platform : Platform
  txCap : Nat
  rxCap : Nat
  base : Word
  clkHz : Word
  irq : Option (Nat × Nat)
  ctrDir : CtrDir
  ctrHz : Nat
  hwTxDepth : Nat
  hwRxDepth : Nat
  allowNios : List LineConfig
  allowMicroblaze : List LineConfig
  divisors : List DivisorEntry
  devMap : DevMap
  errClear : ErrClear
  deriving DecidableEq, Repr

/-- R10, R70, R71: one turn of one agent, with the free inputs the environment gives it. `present` is the HOST presenting
a command (R46, R48); `fg` and `isr` are one atomic step of FG and of the ISR; `rxArrive`, `txLoad` and `txDone` are the
DEV agent's events (R240 to R242); `tick` is one tick of the CTR agent (R141). -/
inductive Event where
  | present (cmd opa opb : Word) (din : List Byte)
  | fg
  | isr
  | rxArrive (v : Byte) (pe fe : Bool)
  | txLoad
  | txDone
  | tick
  deriving DecidableEq, Repr, Inhabited

/-- R11, R238 (U10): DIVISOR(CLK_HZ, bitrate) where an instance's table `Params.divisors` leaves it open, as P0 does: a free
value (DESIGN CHOICE, log entry 10). -/
opaque Config.divisor : Word → Word → Word

/-- R144 (U22): `draw()`, the arbitrary value the counter takes at its first use. The argument numbers the
draws (DESIGN CHOICE, log entry 11). -/
opaque Config.draw : Nat → Word

/-- R70, R240 (U26, U27): the turn the scheduler and the environment choose when the state lists none. The argument
numbers the draws (DESIGN CHOICE, log entry 4). -/
opaque Config.freeEvent : Nat → Event

/-- U36, R61: the bits of a device register that DEV_MAP does not name, as a read returns them (DESIGN CHOICE, log
entry 12). -/
opaque Config.freeBits : Nat → Word

/-- R238: the frame format a device holds that has a divisor and that nothing has given one (DESIGN CHOICE, log entry 12). -/
opaque Config.freeFormat : Nat → LineConfig

/-- The device map of the spec's informative R246 for the Nios core (PRESUMED, log entry 3). -/
def DevMap.niosInformative : DevMap where
  offRx := 0x00#32
  offTx := 0x04#32
  offStatus := 0x08#32
  offCtrl := 0x0C#32
  offDiv := 0x10#32
  rrdy := 7
  trdy := 6
  txEmpty := 9
  tmt := 5
  pe := 0
  fe := 1
  roe := 3
  rxe := [7]
  txe := [6]
  erre := [0, 1, 3]
  rstRx := none

/-- 95_test_vectors.md section 0: the parameter set P0, the instance `State.reset` stands for (DESIGN CHOICE, log entry 2).
BASE, CLK_HZ and DEV_MAP, which P0 leaves at "any legal value", are this model's choice (log entry 3); DIVISOR, which it
leaves open likewise, stays open (log entry 10). -/
def Params.p0 : Params where
  platform := .nios
  txCap := 4
  rxCap := 2
  base := 0x00000000#32
  clkHz := 50000000#32
  irq := none
  ctrDir := .up
  ctrHz := 50000000
  hwTxDepth := 1
  hwRxDepth := 1
  allowNios :=
    [⟨115200#32, 8#4, .none, .one⟩, ⟨9600#32, 8#4, .none, .one⟩, ⟨9600#32, 8#4, .even, .two⟩]
  allowMicroblaze := []
  divisors := []
  devMap := .niosInformative
  errClear := .writeStatusZero

/-- 95_test_vectors.md section 0: P1 is P0 with IRQ = (0, 3). -/
def Params.p1 : Params := { Params.p0 with irq := some (0, 3) }

end Sys2Proof
end

