-- ==== Sys2Proof/WellFormed.lean ====
section
/-!
DEFINITION. What a term must meet to be a term of the spec: an instruction (the range of a count, 30_encoding.md R94), a
presented command (the length of DIN, R105) and an instance of the block (00_scope.md R11, 20_memory.md R65, 44_device.md
R232, 93_implementation_defined.md U50 to U53: "a model must refuse" any other instance).
-/

namespace Sys2Proof

/-- R94: a count operand is a 16-bit field. Every other operand's type holds exactly the values of its field. -/
def Instr.wf : Instr → Bool
  | .uartRead n => decide (n < 65536)
  | .uartWrite n => decide (n < 65536)
  | _ => true

/-- R105: the number of bytes DIN must hold for a command, n for UART.WRITE and none for any other. -/
def Instr.dinLength : Instr → Nat
  | .uartWrite n => n
  | _ => 0

/-- R232, R65: every offset is a multiple of 4, the offsets are distinct, and within one register the bit positions are
distinct bits of a 32-bit word. Each enable has at least one physical bit, and RST_RX exists where ERR_CLEAR needs it
(DEDUCED, log entry 13). -/
def DevMap.wf (m : DevMap) (e : ErrClear) : Bool :=
  let offs := [m.offRx, m.offTx, m.offStatus, m.offCtrl, m.offDiv]
  let stat := [m.rrdy, m.trdy, m.txEmpty, m.tmt, m.pe, m.fe, m.roe]
  let ctrl := m.rxe ++ m.txe ++ m.erre ++ m.rstRx.toList
  offs.all (fun o => decide (o.toNat % 4 = 0)) && decide offs.Nodup
    && stat.all (fun i => decide (i < 32)) && decide stat.Nodup
    && ctrl.all (fun i => decide (i < 32)) && decide ctrl.Nodup
    && !m.rxe.isEmpty && !m.txe.isEmpty && !m.erre.isEmpty
    && (m.rstRx.isSome || decide (e = .writeStatusZero))

/-- R11 with U50 to U53: the instances the spec admits. One whose BASE + off is at or above 2^32 is among them, since no rule
refuses it (DESIGN CHOICE, log entry 23). -/
def Params.wf (p : Params) : Bool :=
  decide (1 ≤ p.txCap) && decide (p.txCap ≤ 65535)
    && decide (1 ≤ p.rxCap) && decide (p.rxCap ≤ 65535)
    && decide (p.base.toNat % 4 = 0) && decide (1 ≤ p.clkHz.toNat)
    && decide (1 ≤ p.ctrHz) && decide (p.ctrHz < 2 ^ 32)
    && decide (1 ≤ p.hwTxDepth) && decide (1 ≤ p.hwRxDepth)
    && p.devMap.wf p.errClear

end Sys2Proof
end

