-- ==== Sys2Proof/Decode.lean ====
section
/-!
DEFINITION. The decoder of spec 30_encoding.md section 4 (R98, R99, R105): total on every 32-bit word, refusing by name;
then the encoder, written from the same opcode table. The rows' MATCH and MASK words are those of spec/opcode_table.json. A
command word is a 32-bit value, not bytes (R64; log entry 15).
-/

namespace Sys2Proof

/-- Why a command word or a presented command is no command (R99, R105). Each raises F_ILLEGAL_CMD when FG decodes it. -/
inductive DecodeError where
  /-- R99: no row of the opcode map has this OPC -/
  | unassignedOpcode
  /-- R91, R99: a reserved-zero bit is set -/
  | reservedBitSet
  /-- R105: DIN does not hold exactly the bytes the command takes -/
  | dinLength
  deriving DecidableEq, Repr

/-- One row of spec/opcode_table.json: its MATCH and MASK words and the instruction its fields give. -/
structure OpRow where
  pattern : Word
  mask : Word
  build : Word → Instr

/-- R92: INST = SEL[0] = CMD[16]. -/
def fieldInst (w : Word) : BufId := if w.getLsbD 16 then .rx else .tx

/-- R93: the byte v = IMM[7:0]. -/
def fieldByte (w : Word) : Byte := w.extractLsb' 0 8

/-- R94: the count n = IMM[15:0], unsigned. -/
def fieldCount (w : Word) : Nat := (w.extractLsb' 0 16).toNat

/-- R95: PAR = LC[5:4]. -/
def parOfBits (v : BitVec 2) : ParField :=
  if v = 0#2 then .none else if v = 1#2 then .even else if v = 2#2 then .odd else .reserved

/-- R95: STOP = LC[7:6]. -/
def stopOfBits (v : BitVec 2) : StopField :=
  if v = 0#2 then .one else if v = 1#2 then .two else if v = 2#2 then .reserved2 else .reserved3

/-- R95: FLOW = LC[9:8]. -/
def flowOfBits (v : BitVec 2) : FlowField :=
  if v = 0#2 then .none else if v = 1#2 then .hw else if v = 2#2 then .sw else .reserved

/-- R95: the line configuration LC = IMM. -/
def fieldLine (w : Word) : LineReq where
  dbits := w.extractLsb' 0 4
  par := parOfBits (w.extractLsb' 4 2)
  stop := stopOfBits (w.extractLsb' 6 2)
  flow := flowOfBits (w.extractLsb' 8 2)

/-- R97: the rows of the BUF.* commands. -/
def bufRows : List OpRow :=
  [ ⟨0x01000000#32, 0xFFFEFFFF#32, fun w => .bufClear (fieldInst w)⟩,
    ⟨0x02000000#32, 0xFFFEFF00#32, fun w => .bufPush (fieldInst w) (fieldByte w)⟩,
    ⟨0x03000000#32, 0xFFFEFFFF#32, fun w => .bufPop (fieldInst w)⟩,
    ⟨0x04000000#32, 0xFFFEFFFF#32, fun w => .bufFront (fieldInst w)⟩,
    ⟨0x05000000#32, 0xFFFEFFFF#32, fun w => .bufEmpty (fieldInst w)⟩,
    ⟨0x06000000#32, 0xFFFEFFFF#32, fun w => .bufFull (fieldInst w)⟩,
    ⟨0x07000000#32, 0xFFFEFFFF#32, fun w => .bufSize (fieldInst w)⟩,
    ⟨0x08000000#32, 0xFFFEFFFF#32, fun w => .bufAvail (fieldInst w)⟩,
    ⟨0x09000000#32, 0xFFFEFFFF#32, fun w => .bufMaxsize (fieldInst w)⟩ ]

/-- R97: the rows of the CTR.* commands; no field but OPC is used, so every other bit is reserved-zero (R91). -/
def ctrRows : List OpRow :=
  [ ⟨0x10000000#32, 0xFFFFFFFF#32, fun _ => .ctrNow⟩,
    ⟨0x11000000#32, 0xFFFFFFFF#32, fun _ => .ctrNs2cnt⟩,
    ⟨0x12000000#32, 0xFFFFFFFF#32, fun _ => .ctrUs2cnt⟩,
    ⟨0x13000000#32, 0xFFFFFFFF#32, fun _ => .ctrMs2cnt⟩,
    ⟨0x14000000#32, 0xFFFFFFFF#32, fun _ => .ctrDiff⟩,
    ⟨0x15000000#32, 0xFFFFFFFF#32, fun _ => .ctrTimeout⟩,
    ⟨0x16000000#32, 0xFFFFFFFF#32, fun _ => .ctrWaitns⟩,
    ⟨0x17000000#32, 0xFFFFFFFF#32, fun _ => .ctrWaitus⟩,
    ⟨0x18000000#32, 0xFFFFFFFF#32, fun _ => .ctrWaitms⟩,
    ⟨0x19000000#32, 0xFFFFFFFF#32, fun _ => .ctrMeasns⟩,
    ⟨0x1A000000#32, 0xFFFFFFFF#32, fun _ => .ctrMeasus⟩,
    ⟨0x1B000000#32, 0xFFFFFFFF#32, fun _ => .ctrMeasms⟩ ]

/-- R97: the rows of the UART.* commands. -/
def uartRows : List OpRow :=
  [ ⟨0x20000000#32, 0xFFFFFC00#32, fun w => .uartSetup (fieldLine w)⟩,
    ⟨0x21000000#32, 0xFFFFFFFF#32, fun _ => .uartGet⟩,
    ⟨0x22000000#32, 0xFFFFFF00#32, fun w => .uartPut (fieldByte w)⟩,
    ⟨0x23000000#32, 0xFFFF0000#32, fun w => .uartRead (fieldCount w)⟩,
    ⟨0x24000000#32, 0xFFFF0000#32, fun w => .uartWrite (fieldCount w)⟩,
    ⟨0x25000000#32, 0xFFFFFFFF#32, fun _ => .uartClear⟩,
    ⟨0x26000000#32, 0xFFFFFFFF#32, fun _ => .uartFlush⟩,
    ⟨0x27000000#32, 0xFFFFFFFF#32, fun _ => .uartFrameperiod⟩,
    ⟨0x28000000#32, 0xFFFFFFFF#32, fun _ => .uartOverrun⟩,
    ⟨0x29000000#32, 0xFFFFFFFF#32, fun _ => .uartFraming⟩,
    ⟨0x2A000000#32, 0xFFFFFFFF#32, fun _ => .uartParity⟩,
    ⟨0x30000000#32, 0xFFFFFC00#32, fun w => .uartCreate (fieldLine w)⟩,
    ⟨0x31000000#32, 0xFFFFFFFF#32, fun _ => .uartDestroy⟩,
    ⟨0x32000000#32, 0xFFFFFFFF#32, fun _ => .uartService⟩ ]

/-- R97, spec/opcode_table.json: all 35 rows. -/
def opRows : List OpRow := bufRows ++ (ctrRows ++ uartRows)

/-- R90: OPC = CMD[31:24]. -/
def opcodeOf (w : Word) : BitVec 8 := w.extractLsb' 24 8

/-- R98: the row whose MATCH has OPC = opc. -/
def rowOf (opc : BitVec 8) : Option OpRow := opRows.find? fun r => opcodeOf r.pattern == opc

/-- R98, R99: Decode(CMD), total on every 32-bit word. -/
def decode (w : Word) : Except DecodeError Instr :=
  match rowOf (opcodeOf w) with
  | none => .error .unassignedOpcode
  | some r => if w &&& r.mask = r.pattern then .ok (r.build w) else .error .reservedBitSet

/-- R98 with R105: decoding a presented command, the word and then the length of DIN. -/
def decodeCommand (w : Word) (din : List Byte) : Except DecodeError Instr :=
  match decode w with
  | .error e => .error e
  | .ok i => if din.length = i.dinLength then .ok i else .error .dinLength

/-- The host's view of the decoder: a table row's bits as one number, bit 0 the least significant bit of the command word
(R90). A number that does not fit the bits given, or a command word's 32 bits, is no command. -/
def decodeTableWord (nbits w : Nat) : Option Instr :=
  if 2 ^ min nbits 32 ≤ w then none
  else
    match decode (BitVec.ofNat 32 w) with
    | .ok i => some i
    | .error _ => none

/-- R92: INST in CMD[16]. -/
def instBits : BufId → Word
  | .tx => 0x00000000#32
  | .rx => 0x00010000#32

/-- R93: the byte in IMM[7:0]. -/
def byteBits (v : Byte) : Word := v.setWidth 32

/-- R94: the count in IMM[15:0]. -/
def countBits (n : Nat) : Word := (BitVec.ofNat 16 n).setWidth 32

/-- R95: PAR in LC[5:4]. -/
def ParField.bits : ParField → Word
  | .none => 0x00#32
  | .even => 0x10#32
  | .odd => 0x20#32
  | .reserved => 0x30#32

/-- R95: STOP in LC[7:6]. -/
def StopField.bits : StopField → Word
  | .one => 0x00#32
  | .two => 0x40#32
  | .reserved2 => 0x80#32
  | .reserved3 => 0xC0#32

/-- R95: FLOW in LC[9:8]. -/
def FlowField.bits : FlowField → Word
  | .none => 0x000#32
  | .hw => 0x100#32
  | .sw => 0x200#32
  | .reserved => 0x300#32

/-- R95: LC in IMM[9:0]. -/
def lineBits (lc : LineReq) : Word :=
  lc.dbits.setWidth 32 ||| lc.par.bits ||| lc.stop.bits ||| lc.flow.bits

/-- The command word of an instruction (R90 to R97). -/
def encode : Instr → Word
  | .bufClear b => 0x01000000#32 ||| instBits b
  | .bufPush b v => 0x02000000#32 ||| instBits b ||| byteBits v
  | .bufPop b => 0x03000000#32 ||| instBits b
  | .bufFront b => 0x04000000#32 ||| instBits b
  | .bufEmpty b => 0x05000000#32 ||| instBits b
  | .bufFull b => 0x06000000#32 ||| instBits b
  | .bufSize b => 0x07000000#32 ||| instBits b
  | .bufAvail b => 0x08000000#32 ||| instBits b
  | .bufMaxsize b => 0x09000000#32 ||| instBits b
  | .ctrNow => 0x10000000#32
  | .ctrNs2cnt => 0x11000000#32
  | .ctrUs2cnt => 0x12000000#32
  | .ctrMs2cnt => 0x13000000#32
  | .ctrDiff => 0x14000000#32
  | .ctrTimeout => 0x15000000#32
  | .ctrWaitns => 0x16000000#32
  | .ctrWaitus => 0x17000000#32
  | .ctrWaitms => 0x18000000#32
  | .ctrMeasns => 0x19000000#32
  | .ctrMeasus => 0x1A000000#32
  | .ctrMeasms => 0x1B000000#32
  | .uartSetup lc => 0x20000000#32 ||| lineBits lc
  | .uartGet => 0x21000000#32
  | .uartPut v => 0x22000000#32 ||| byteBits v
  | .uartRead n => 0x23000000#32 ||| countBits n
  | .uartWrite n => 0x24000000#32 ||| countBits n
  | .uartClear => 0x25000000#32
  | .uartFlush => 0x26000000#32
  | .uartFrameperiod => 0x27000000#32
  | .uartOverrun => 0x28000000#32
  | .uartFraming => 0x29000000#32
  | .uartParity => 0x2A000000#32
  | .uartCreate lc => 0x30000000#32 ||| lineBits lc
  | .uartDestroy => 0x31000000#32
  | .uartService => 0x32000000#32

end Sys2Proof
end

