-- ==== Sys2Proof/Machine/State.lean ====
section
/-!
DEFINITION. The state of one instance of the block (spec 10_state.md R20 to R48, 44_device.md R230), the reasons a step can
stop, and the power-on state (70_reset_and_hazards.md R280).
-/

namespace Sys2Proof.Machine

/-- A buffer's storage (R23, R62), "a register file of `b.cap` bytes": its slots as (index, byte) pairs, indexes strictly
rising. A slot that is not listed holds `Memory.unlisted`. -/
abbrev Memory := List Host.Cell

/-- The byte of a slot the list does not name, a slot nothing has written since power-on among them. R23 and U21 leave that
value open ("any value"); 0x00 is the model's (DESIGN CHOICE, log entry 5). -/
def Memory.unlisted : Byte := 0x00#8

/-- The canonical form of a storage: indexes strictly rising, and no slot listed that holds `Memory.unlisted`. -/
def Memory.wf : Memory → Bool
  | [] => true
  | [c] => decide (c.2 ≠ Memory.unlisted)
  | c :: d :: m => decide (c.2 ≠ Memory.unlisted) && decide (c.1 < d.1) && Memory.wf (d :: m)

/-- R21: the state of one BoundedByteBuffer. Its capacity is a parameter (`State.cap`). -/
structure Buffer where
  store : Memory
  head : Nat
  tail : Nat
  count : Nat
  init : Bool
  deriving DecidableEq, Repr

/-- R25: the MonotonicCounter state. -/
structure Counter where
  init : Bool
  cnt : Word
  deriving DecidableEq, Repr

/-- R27: the latched receive-error mask, bit 0 PE, bit 1 FE, bit 2 OE (held as its three bits, log entry 20). -/
structure Sticky where
  pe : Bool
  fe : Bool
  oe : Bool
  deriving DecidableEq, Repr

/-- R28: the interrupt-source enables, bit 0 RXE, bit 1 TXE, bit 2 ERRE; the layout of `ier` and of `dev.ctrl` (held as its
three bits, log entry 20). -/
structure Enables where
  rxe : Bool
  txe : Bool
  erre : Bool
  deriving DecidableEq, Repr

/-- R31: the interrupt-controller capability for this device's identity. Its acknowledge is not modelled (C6, log entry
16). -/
structure IrqCtl where
  registered : Bool
  enabled : Bool
  deriving DecidableEq, Repr

/-- R34: the lifecycle state. -/
inductive Lifecycle where
  | unconstructed
  | ready
  | setupFailed
  | destroyed
  deriving DecidableEq, Repr

/-- R231: the flags a device status read returns. -/
structure DevFlags where
  rrdy : Bool
  trdy : Bool
  txEmpty : Bool
  tmt : Bool
  pe : Bool
  fe : Bool
  roe : Bool
  deriving DecidableEq, Repr

/-- R37, R211 to R214: the point SERVICE has reached, with its locals `s` (the status snapshot) and `k` (the drain count).
`h2read`: the re-read saw `rrdy`, DevReadRx is next. `h2push`: the byte v is read and not yet deposited. `h4`: H3's access
is made, the end of SERVICE is next. -/
inductive SvcPoint where
  | h0
  | h1 (s : DevFlags)
  | h2 (s : DevFlags)
  | h2read (s : DevFlags) (k : Nat)
  | h2push (s : DevFlags) (k : Nat) (v : Byte)
  | h3 (s : DevFlags)
  | h4
  deriving DecidableEq, Repr

/-- R36: the point a command that spans several FG steps has reached, with its locals. Which points there are follows from
where R71 ends a step (DEDUCED, log entry 8). -/
inductive FgPoint where
  /-- R174: the device is configured; the buffers and `ier` are next -/
  | setupCtrl (cfg : LineConfig)
  /-- R174: `ier` is written; re-enabling the interrupt source and the end of the command are next -/
  | setupEnd
  /-- R178: PutCore has read the status -/
  | putGot (s : DevFlags)
  /-- R179: the byte is accepted; setting TXE is next -/
  | putCtrl
  /-- R179, R181: TXE is set; the end of the critical section and of the command are next -/
  | putEnd
  /-- R181: PutCore has read the status for the head of the bytes still to put -/
  | writeGot (rest : List Byte) (s : DevFlags)
  /-- R181: one byte is accepted; the next status read, or setting TXE, is next -/
  | writeNext (rest : List Byte)
  /-- R155: the base is taken; the next sample is next -/
  | waitSample (t base : Word)
  /-- R184 D0 -/
  | flushBase (fpc idleBound : Word)
  /-- R184 D1 -/
  | flushDrain (fpc idleBound base : Word)
  /-- R184 D1, inside the critical section, the status read -/
  | flushGot (fpc idleBound base : Word) (s : DevFlags)
  /-- R184 D2 -/
  | flushBound (fpc idleBound base : Word)
  /-- R185 I1 -/
  | flushIdle (fpc idleBound base : Word)
  /-- R185, the status read; the idle test, then I2 or E0, is next -/
  | flushTest (fpc idleBound base : Word) (s : DevFlags)
  /-- R186 E0 on MICROBLAZE: Wait(fpc) has taken its base -/
  | flushWait (fpc base : Word)
  /-- R186 E1 -/
  | flushEnd
  /-- R186: TXE is cleared; the end of the command is next -/
  | flushDone
  /-- R191: the device is zeroed; the rest of DESTROY is next -/
  | destroyEnd
  /-- R216: the command form of SERVICE -/
  | svc (p : SvcPoint)
  deriving DecidableEq, Repr

/-- R36: the FG continuation. `presented`: the HOST has presented a command (R48) that FG has not decoded yet (R98). -/
inductive FgState where
  | idle
  | presented
  | running (i : Instr) (p : FgPoint)
  deriving DecidableEq, Repr

/-- R37: the ISR continuation. -/
inductive IsrState where
  | inactive
  | active (p : SvcPoint)
  deriving DecidableEq, Repr

/-- R46 to R48: the command port. CMD, OPA, OPB, DIN are written by the HOST; STS, RES, DOUT by the block. -/
structure Port where
  cmd : Word
  opa : Word
  opb : Word
  din : List Byte
  sts : BitVec 8
  res : Word
  dout : List Byte
  busy : Bool
  deriving DecidableEq, Repr

/-- R240: a frame that arrived on the line, with its error flags. -/
structure Frame where
  byte : Byte
  pe : Bool
  fe : Bool
  deriving DecidableEq, Repr

/-- R230: the UART device state. `shifter = none` is NONE; `cfg = none` is UNSET. -/
structure Device where
  rxq : List Byte
  txq : List Byte
  shifter : Option Byte
  pe : Bool
  fe : Bool
  roe : Bool
  ctrl : Enables
  cfg : Option (LineConfig × Word)
  lineIn : List Frame
  lineOut : List Byte
  deriving DecidableEq, Repr

/-- R20: the state of one instance. `saved` is the critical-section local of R73, which R280 lists. Three fields are the
model's own: `inst`, the instance's parameters (R11; no step writes them, log entry 1); `sched`, the turns the scheduler
and the environment take next (R70, log entry 4); `draws`, the number of free values drawn so far (log entry 4). -/
structure State where
  inst : Params
  sched : List Event
  draws : Nat
  tx : Buffer
  rx : Buffer
  ctr : Counter
  sticky : Sticky
  ier : Enables
  lcfg : LineConfig
  fp : Word
  irqc : IrqCtl
  lc : Lifecycle
  fault : BitVec 8
  fg : FgState
  isr : IsrState
  inCS : Bool
  saved : Bool
  port : Port
  dev : Device
  deriving DecidableEq, Repr

/-- R251: the status codes a command ends with; `fault` is the 0xFF that a raise writes. -/
inductive Status where
  | ok
  | errConfig
  | errNoData
  | errFull
  | errStall
  | fault
  deriving DecidableEq, Repr

/-- R253: the fault codes a raise records in `fault`. Raising one is a NEXT state (`raiseFault`), not a stop of the model:
R252 says what it writes, and DEV and CTR keep stepping. -/
inductive FaultCode where
  | illegalCmd
  | notConstructed
  | setupFailedUse
  | destroyed
  | bufUninit
  | pushFull
  | popEmpty
  | frontEmpty
  | convOverflow
  | measureOverflow
  | devProtocol
  | alreadyConstructed
  deriving DecidableEq, Repr

/-- The stops of the model itself. None can be reached from a state that meets the invariant `Inv` of Safety.lean. -/
inductive Fault where
  /-- Raised by `bufPush` and `bufFront` when a cursor is outside [0, cap): R21 gives the buffer no such slot. Safe. -/
  | noSlot
  /-- Raised by the register view `memRead` and `memWrite` (Machine/Device.lean) for an access the block never makes: an
  address that is no register of DEV_MAP, a register read or written the other way, or a nonzero status write. Safe. -/
  | noRegister
  deriving DecidableEq, Repr

/-- The inputs the model turns away, as 93_implementation_defined.md says a model must. -/
inductive Refusal where
  /-- Raised by exec's arm of an instruction that has no meaning yet. No arm raises it. Safe. -/
  | notModelled (mnemonic : String)
  /-- Raised by `step` when the instance breaks U50 to U53: "a model must reject the instance" (log entry
  19). Safe. -/
  | illegalInstance
  /-- Raised by a `present` turn while `port.busy` = 1 or `fault` ≠ 0 (R48, U47: "not a legal HOST step";
  log entry 18). Safe. -/
  | hostProtocol
  deriving DecidableEq, Repr

/-- R24, R280: a buffer at power-on. `init` = 0; `head`, `tail` and `count` are unspecified there and 0 here (log entry 6), and so
is every slot (log entry 5). -/
def Buffer.powerOn : Buffer := ⟨[], 0, 0, 0, false⟩

/-- R230: the device at power-on. -/
def Device.powerOn : Device :=
  ⟨[], [], none, false, false, false, ⟨false, false, false⟩, none, [], []⟩

/-- R280: the power-on state of an instance. The values R280 leaves unspecified (`sticky`, `lcfg`, `fp`, `ctr.cnt`, `saved`,
the cursors and the port registers) are 0, empty or false here (DESIGN CHOICE, log entry 6). -/
def State.powerOn (p : Params) : State where
  inst := p
  sched := []
  draws := 0
  tx := .powerOn
  rx := .powerOn
  ctr := ⟨false, 0#32⟩
  sticky := ⟨false, false, false⟩
  ier := ⟨false, false, false⟩
  lcfg := ⟨0#32, 0#4, .none, .one⟩
  fp := 0#32
  irqc := ⟨false, false⟩
  lc := .unconstructed
  fault := 0x00#8
  fg := .idle
  isr := .inactive
  inCS := false
  saved := false
  port := ⟨0#32, 0#32, 0#32, [], 0x00#8, 0#32, [], false⟩
  dev := .powerOn

/-- R280, for the instance P0 of 95_test_vectors.md (DESIGN CHOICE, log entry 2). -/
def State.reset : State := State.powerOn Params.p0

end Sys2Proof.Machine
end

