-- ==== Sys2Proof/Machine/Flags.lean ====
section
/-!
DEFINITION. Every flag the spec computes: the buffer predicates (10_state.md R41), the device status word's flags and the
interrupt request level (44_device.md R231, R243, R245), the sticky and enable masks' bit layouts (R27, R28), the transport
states that are functions of the state (R32), and the numeric status and fault codes (60_exceptions.md R251, R253).
-/

namespace Sys2Proof.Machine

/-- R13: "Booleans are 1 (true) and 0 (false) when placed in RES." -/
def boolWord (b : Bool) : Word := if b then 1#32 else 0#32

/-- R251: the value of STS. -/
def Status.code : Status → BitVec 8
  | .ok => 0x00#8
  | .errConfig => 0x01#8
  | .errNoData => 0x02#8
  | .errFull => 0x03#8
  | .errStall => 0x04#8
  | .fault => 0xFF#8

/-- R253: the value of `fault`. -/
def FaultCode.code : FaultCode → BitVec 8
  | .illegalCmd => 0x01#8
  | .notConstructed => 0x02#8
  | .setupFailedUse => 0x03#8
  | .destroyed => 0x04#8
  | .bufUninit => 0x05#8
  | .pushFull => 0x06#8
  | .popEmpty => 0x07#8
  | .frontEmpty => 0x08#8
  | .convOverflow => 0x09#8
  | .measureOverflow => 0x0A#8
  | .devProtocol => 0x0B#8
  | .alreadyConstructed => 0x0C#8

/-- R41: empty ⇔ `count` = 0. -/
def Buffer.isEmpty (b : Buffer) : Bool := decide (b.count = 0)

/-- R41: full ⇔ `count` = `cap`. -/
def Buffer.isFull (cap : Nat) (b : Buffer) : Bool := decide (b.count = cap)

/-- R27: the sticky mask as its 3 bits, PE in bit 0, FE in bit 1, OE in bit 2. -/
def Sticky.bits (k : Sticky) : BitVec 3 :=
  BitVec.ofBool k.oe ++ BitVec.ofBool k.fe ++ BitVec.ofBool k.pe

/-- R28: the enable mask as its 3 bits, RXE in bit 0, TXE in bit 1, ERRE in bit 2. -/
def Enables.bits (e : Enables) : BitVec 3 :=
  BitVec.ofBool e.erre ++ BitVec.ofBool e.txe ++ BitVec.ofBool e.rxe

/-- R231: the status flags are a function of `dev`. -/
def statusFlags (txDepth : Nat) (d : Device) : DevFlags where
  rrdy := !d.rxq.isEmpty
  trdy := decide (d.txq.length < txDepth)
  txEmpty := d.txq.isEmpty
  tmt := d.txq.isEmpty && d.shifter.isNone
  pe := d.pe
  fe := d.fe
  roe := d.roe

/-- R212: "if s.pe or s.fe or s.roe". -/
def DevFlags.anyError (f : DevFlags) : Bool := f.pe || f.fe || f.roe

/-- R245: the platform's idle test. -/
def devIdle (p : Platform) (f : DevFlags) : Bool :=
  match p with
  | .nios => f.tmt
  | .microblaze => f.txEmpty

/-- R243: the device's interrupt request level. -/
def irqLevel (s : State) : Bool :=
  let f := statusFlags s.inst.hwTxDepth s.dev
  (s.dev.ctrl.rxe && f.rrdy) || (s.dev.ctrl.txe && f.trdy) || (s.dev.ctrl.erre && f.anyError)

/-- R212: OR the snapshot's errors into the sticky mask. -/
def Sticky.latch (k : Sticky) (f : DevFlags) : Sticky where
  pe := k.pe || f.pe
  fe := k.fe || f.fe
  oe := k.oe || f.roe

/-- R174, R182: `sticky` ← 0. -/
def Sticky.zero : Sticky := ⟨false, false, false⟩

/-- R239, R191: an enable mask of 0. -/
def Enables.zero : Enables := ⟨false, false, false⟩

/-- R174: the value SetupCore writes to `ier`. -/
def Enables.setup : Enables := ⟨true, false, true⟩

/-- R32: Idle ⇔ `ier.TXE` = 0. -/
def State.isIdle (s : State) : Bool := !s.ier.txe

/-- R32: Transmitting ⇔ `ier.TXE` = 1. -/
def State.isTransmitting (s : State) : Bool := s.ier.txe

/-- R32: Error-latched ⇔ `sticky` ≠ 0. -/
def State.isErrorLatched (s : State) : Bool := s.sticky.pe || s.sticky.fe || s.sticky.oe

end Sys2Proof.Machine
end

