-- ==== Sys2Proof/Machine/Ops.lean ====
section
/-!
DEFINITION. The named operations every meaning is written over: the buffer storage, the buffer primitives (40_buffer.md R120
to R124), the end of a command (10_state.md R47), taking a fault (60_exceptions.md R252), interrupt entry and return (R258,
R261, R262), the critical section (20_memory.md R73), the counter primitives (41_counter.md R142 to R144), the device
operations (44_device.md R233 to R239) and the decoding of a presented command (30_encoding.md R98).
-/

namespace Sys2Proof.Machine

/-- What a meaning and a step answer. -/
abbrev Outcome := Host.Outcome State Fault Refusal

/-- Why an operation gives no value: it raises a fault of the spec (R252), or the model stops. -/
inductive Stop where
  | raise (c : FaultCode)
  | stop (f : Fault)
  deriving DecidableEq, Repr

/-! The buffer storage. -/

/-- The byte a slot holds. -/
def Memory.read : Memory → Nat → Byte
  | [], _ => Memory.unlisted
  | (k, v) :: m, i => if i = k then v else Memory.read m i

/-- Lists a slot, keeping the indexes strictly rising. -/
def Memory.list : Memory → Nat → Byte → Memory
  | [], i, w => [(i, w)]
  | (k, v) :: m, i, w =>
    if i < k then (i, w) :: (k, v) :: m
    else if i = k then (i, w) :: m
    else (k, v) :: Memory.list m i w

/-- Writes a slot, keeping the canonical form: writing `Memory.unlisted` takes the slot out of the list. -/
def Memory.write (m : Memory) (i : Nat) (w : Byte) : Memory :=
  if w = Memory.unlisted then m.filter (fun c => decide (c.1 ≠ i)) else m.list i w

/-! The buffers. -/

/-- The buffer a BUF.* command selects (R92). -/
def State.buf (s : State) : BufId → Buffer
  | .tx => s.tx
  | .rx => s.rx

/-- R21: `tx.cap` = TX_CAP and `rx.cap` = RX_CAP. -/
def State.cap (s : State) : BufId → Nat
  | .tx => s.inst.txCap
  | .rx => s.inst.rxCap

/-- Writes back one buffer. -/
def State.setBuf (s : State) (b : BufId) (v : Buffer) : State :=
  match b with
  | .tx => { s with tx := v }
  | .rx => { s with rx := v }

/-- R120: `Inc(i, cap)`. -/
def inc (i cap : Nat) : Nat := if i + 1 = cap then 0 else i + 1

/-- R121: `BufClear(b)`; the slots are not written. -/
def bufClear (b : Buffer) : Buffer := { b with head := 0, tail := 0, count := 0, init := true }

/-- R122: `BufPush(b, v)`. -/
def bufPush (cap : Nat) (b : Buffer) (v : Byte) : Except Stop Buffer :=
  if b.count = cap then .error (.raise .pushFull)
  else if b.tail < cap then
    .ok { b with store := b.store.write b.tail v, tail := inc b.tail cap, count := b.count + 1 }
  else .error (.stop .noSlot)

/-- R123: `BufPop(b)`; the slot it leaves is not erased. -/
def bufPop (cap : Nat) (b : Buffer) : Except Stop Buffer :=
  if b.count = 0 then .error (.raise .popEmpty)
  else .ok { b with head := inc b.head cap, count := b.count - 1 }

/-- R124: `BufFront(b)`. -/
def bufFront (cap : Nat) (b : Buffer) : Except Stop Byte :=
  if b.count = 0 then .error (.raise .frontEmpty)
  else if b.head < cap then .ok (b.store.read b.head)
  else .error (.stop .noSlot)

/-- `v <- BufFront(b); BufPop(b)`: the oldest byte and the buffer without it. -/
def bufTake (cap : Nat) (b : Buffer) : Except Stop (Byte × Buffer) :=
  match bufFront cap b with
  | .error e => .error e
  | .ok v =>
    match bufPop cap b with
    | .error e => .error e
    | .ok b' => .ok (v, b')

/-- R180: `repeat n times: out <- out ++ [BufFront(rx)]; BufPop(rx)`. -/
def bufTakeMany (cap : Nat) : Nat → Buffer → Except Stop (List Byte × Buffer)
  | 0, b => .ok ([], b)
  | n + 1, b =>
    match bufTake cap b with
    | .error e => .error e
    | .ok (v, b') =>
      match bufTakeMany cap n b' with
      | .error e => .error e
      | .ok (vs, b'') => .ok (v :: vs, b'')

/-! The end of a command, and taking a fault. -/

/-- R47: a command ends with a status, a result and DOUT. -/
def finishWith (st : Status) (res : Word) (dout : List Byte) (s : State) : State :=
  { s with
    fg := .idle
    port := { s.port with sts := st.code, res := res, dout := dout, busy := false } }

/-- R47: `finish(sts, res)`; DOUT ← []. -/
def finish (st : Status) (res : Word) (s : State) : State := finishWith st res [] s

/-- R252: `raise Fault(code)`, the ONE operation that takes a fault. It does not exit an open critical section. -/
def raiseFault (c : FaultCode) (s : State) : State :=
  { s with
    fault := c.code
    fg := .idle
    isr := .inactive
    port := { s.port with sts := Status.fault.code, res := 0#32, dout := [], busy := false } }

/-- An operation's stop inside a command: R252's raise is a next state, a stop of the model is the model's fault. -/
def Stop.outcome (e : Stop) (s : State) : Outcome :=
  match e with
  | .raise c => .next (raiseFault c s)
  | .stop f => .fault f

/-- Goes on with an operation's value, or stops as the operation says, at state `s`. -/
def onOk {α : Type} (r : Except Stop α) (s : State) (k : α → Outcome) : Outcome :=
  match r with
  | .ok a => k a
  | .error e => e.outcome s

/-! The critical section. -/

/-- R73: CS_enter. -/
def csEnter (s : State) : State :=
  { s with
    saved := if s.inst.irq.isSome then s.irqc.enabled else s.saved
    irqc := if s.inst.irq.isSome then { s.irqc with enabled := false } else s.irqc
    inCS := true }

/-- R73: CS_exit. -/
def csExit (s : State) : State :=
  { s with
    inCS := false
    irqc := if s.inst.irq.isSome then { s.irqc with enabled := s.saved } else s.irqc }

/-! The counter. -/

/-- R144: `CtrEnsureInit()`. -/
def ensureInit (s : State) : State :=
  { s with
    ctr := if s.ctr.init then s.ctr else ⟨true, Config.draw s.draws⟩
    draws := if s.ctr.init then s.draws else s.draws + 1 }

/-- R143: `Diff(start, end)`, modulo 2^32. -/
def diff (dir : CtrDir) (start stop : Word) : Word :=
  match dir with
  | .up => stop - start
  | .down => start - stop

/-- R141: one count. -/
def ctrNext (dir : CtrDir) (c : Word) : Word :=
  match dir with
  | .up => c + 1#32
  | .down => c - 1#32

/-! The device operations. Each executes its effect on `dev` directly, as R232 allows; Machine/Device.lean gives the
register accesses they stand for. -/

/-- R233: `DevStatus()`. No side effect. -/
def devStatus (s : State) : DevFlags := statusFlags s.inst.hwTxDepth s.dev

/-- R234: `DevReadRx()`. -/
def devReadRx (s : State) : Except Stop (Byte × State) :=
  match s.dev.rxq with
  | [] => .error (.raise .devProtocol)
  | v :: q => .ok (v, { s with dev := { s.dev with rxq := q } })

/-- R235: `DevWriteTx(v)`. -/
def devWriteTx (v : Byte) (s : State) : Except Stop State :=
  if s.dev.txq.length = s.inst.hwTxDepth then .error (.raise .devProtocol)
  else .ok { s with dev := { s.dev with txq := s.dev.txq ++ [v] } }

/-- R236: `DevWriteCtrl(m)`. -/
def devWriteCtrl (m : Enables) (s : State) : State := { s with dev := { s.dev with ctrl := m } }

/-- R28, R236: a write of `ier` with the DevWriteCtrl that follows it in the same step. -/
def setIer (m : Enables) (s : State) : State := devWriteCtrl m { s with ier := m }

/-- R237: `DevClearErr()`, by the method ERR_CLEAR selects. -/
def devClearErr (s : State) : State :=
  { s with
    dev :=
      { s.dev with
        rxq := match s.inst.errClear with
          | .writeStatusZero => s.dev.rxq
          | .resetRxFifo => []
        pe := false
        fe := false
        roe := false } }

/-- R238: `DevConfigure(cfg, d)`. -/
def devConfigure (cfg : LineConfig) (d : Word) (s : State) : State :=
  { s with dev := { s.dev with cfg := some (cfg, d) } }

/-- R239: `DevZero()`. The queues and the shifter keep their contents. -/
def devZero (s : State) : State :=
  { s with dev := { s.dev with ctrl := .zero, pe := false, fe := false, roe := false } }

/-! The FG continuation, and decoding. -/

/-- The point a running command has reached; none before its first step (R36). A meaning called at a point of another command
takes its first step (log entry 17). -/
def FgState.point : FgState → Option FgPoint
  | .running _ p => some p
  | _ => none

/-- Ends an atomic step of command `i` at point `p` (R71): FG goes on there at its next turn. -/
def pauseAt (i : Instr) (p : FgPoint) (s : State) : Outcome := .next { s with fg := .running i p }

/-- R98, R99, R105: the command the port holds, decoded. -/
def fetchCommand (s : State) : Except DecodeError Instr := decodeCommand s.port.cmd s.port.din

/-- R98, R253: what FG does with a command that does not decode, whatever the reason. -/
def rejectCommand (_e : DecodeError) (s : State) : Outcome := .next (raiseFault .illegalCmd s)

/-! Interrupt entry and return. No interrupt of another priority is modelled (R263, R289, log entry 16). -/

/-- R258: the delivery conditions. -/
def deliverable (s : State) : Bool :=
  s.inst.irq.isSome && s.irqc.registered && s.irqc.enabled && irqLevel s
    && !s.inCS && decide (s.fault = 0#8) && decide (s.isr = .inactive)

/-- R215, R261: interrupt entry, `isr` ← H0. Nothing is saved and nothing else changes. -/
def enterService (s : State) : State := { s with isr := .active .h0 }

/-- R215, R262: interrupt return, `isr` ← INACTIVE. Nothing is restored. -/
def leaveService (s : State) : State := { s with isr := .inactive }

end Sys2Proof.Machine
end

