-- ==== Sys2Proof/Machine/Operands.lean ====
section
/-!
DEFINITION. What the commands compute from their operands: the counter's scaling constants, conversions and measurements
(41_counter.md R145 to R147), and the line configuration, its validation, its divisor and its frame period (42_transport.md
R171 to R174, 00_scope.md R11).
-/

namespace Sys2Proof.Machine

/-- R13: `ceil_div(a, b)` = (a + b − 1) div b. -/
def ceilDiv (a b : Nat) : Nat := (a + b - 1) / b

/-- R145: counts per microsecond. -/
def countsPerUs (hz : Nat) : Nat := ceilDiv hz 1000000

/-- R145: counts per millisecond. -/
def countsPerMs (hz : Nat) : Nat := ceilDiv hz 1000

/-- R145: counts per 1024 nanoseconds. -/
def countsPer1024Ns (hz : Nat) : Nat := ceilDiv (hz * 1024) 1000000000

/-- R146: the exact product, or F_CONV_OVERFLOW where it exceeds 2^32 − 1. -/
def convProduct (x : Word) (c : Nat) : Except Stop Nat :=
  if x.toNat * c > 2 ^ 32 - 1 then .error (.raise .convOverflow) else .ok (x.toNat * c)

/-- R146: `ConvUs(x)`. -/
def convUs (hz : Nat) (x : Word) : Except Stop Word :=
  (convProduct x (countsPerUs hz)).map (BitVec.ofNat 32)

/-- R146: `ConvMs(x)`. -/
def convMs (hz : Nat) (x : Word) : Except Stop Word :=
  (convProduct x (countsPerMs hz)).map (BitVec.ofNat 32)

/-- R146: `ConvNs(x)`. -/
def convNs (hz : Nat) (x : Word) : Except Stop Word :=
  (convProduct x (countsPer1024Ns hz)).map fun p => BitVec.ofNat 32 (ceilDiv p 1024)

/-- R147: `MeasX(d)` for a unit of `unit` per second, F_MEASURE_OVERFLOW above 2^32 − 1. -/
def measureCounts (unit hz : Nat) (d : Word) : Except Stop Word :=
  if ceilDiv (d.toNat * unit) hz > 2 ^ 32 - 1 then .error (.raise .measureOverflow)
  else .ok (BitVec.ofNat 32 (ceilDiv (d.toNat * unit) hz))

/-- R147: `MeasNs(d)`. -/
def measNs (hz : Nat) (d : Word) : Except Stop Word := measureCounts 1000000000 hz d

/-- R147: `MeasUs(d)`. -/
def measUs (hz : Nat) (d : Word) : Except Stop Word := measureCounts 1000000 hz d

/-- R147: `MeasMs(d)`. -/
def measMs (hz : Nat) (d : Word) : Except Stop Word := measureCounts 1000 hz d

/-- R153, R159 to R161: Diff(OPA, OPB). -/
def operandDiff (s : State) : Word := diff s.inst.ctrDir s.port.opa s.port.opb

/-- R173: a parity setting that is not the reserved value. -/
def parityOf : ParField → Option Parity
  | .none => some .none
  | .even => some .even
  | .odd => some .odd
  | .reserved => none

/-- R173: a stop setting that is not a reserved value. -/
def stopBitsOf : StopField → Option StopBits
  | .one => some .one
  | .two => some .two
  | .reserved2 => none
  | .reserved3 => none

/-- R11: ALLOW(PLATFORM). -/
def allowList (p : Params) : List LineConfig :=
  match p.platform with
  | .nios => p.allowNios
  | .microblaze => p.allowMicroblaze

/-- R171, R173: the line configuration of LC and OPA, if `Valid(cfg, flow)` holds. -/
def validate (p : Params) (bitrate : Word) (lc : LineReq) : Option LineConfig :=
  match lc.flow, parityOf lc.par, stopBitsOf lc.stop with
  | .none, some par, some stop =>
    if bitrate = 0#32 then none
    else if (⟨bitrate, lc.dbits, par, stop⟩ : LineConfig) ∈ allowList p then
      some ⟨bitrate, lc.dbits, par, stop⟩
    else none
  | _, _, _ => none

/-- R11: the value a table of DIVISOR gives for (CLK_HZ, bitrate), its first entry for the pair; a pair without an entry is
open, and its value free (DESIGN CHOICE, log entry 10). Every function is a table's (`divisorAt_represents`). -/
def divisorAt : List DivisorEntry → Word → Word → Word
  | [], clkHz, bitrate => Config.divisor clkHz bitrate
  | e :: es, clkHz, bitrate =>
    if e.clkHz = clkHz ∧ e.bitrate = bitrate then e.value else divisorAt es clkHz bitrate

/-- R11, R174: DIVISOR(CLK_HZ, bitrate), the instance's own function at the instance's own clock. -/
def divisor (p : Params) (bitrate : Word) : Word := divisorAt p.divisors p.clkHz bitrate

/-- R172: `FrameBits(cfg)`. -/
def frameBits (cfg : LineConfig) : Nat :=
  1 + cfg.dbits.toNat + (if cfg.par = .none then 0 else 1) + (if cfg.stop = .one then 1 else 2)

/-- R172: `FramePeriod(cfg)`, in microseconds. -/
def framePeriod (cfg : LineConfig) : Word :=
  BitVec.ofNat 32 (ceilDiv (frameBits cfg * 1000000) cfg.bitrate.toNat)

/-- R183: the bound of FLUSH's idle wait, (HW_TX_DEPTH + 1) frame periods, F_CONV_OVERFLOW above 2^32 − 1. -/
def idleBoundOf (depth : Nat) (fpc : Word) : Except Stop Word :=
  if (depth + 1) * fpc.toNat > 2 ^ 32 - 1 then .error (.raise .convOverflow)
  else .ok (BitVec.ofNat 32 ((depth + 1) * fpc.toNat))

end Sys2Proof.Machine
end

