-- ==== Sys2Proof/Machine/Service.lean ====
section
/-!
DEFINITION. The interrupt handler SERVICE (spec 43_handler.md R210 to R214), one atomic step at a time (DEDUCED, log entry
8). The ISR agent (Machine/Agents.lean) and the command UART.SERVICE (Machine/Uart.lean) both run it.
-/

namespace Sys2Proof.Machine

/-- What one atomic step of SERVICE answers: the point it has reached, its end (H4), or a stop. -/
inductive SvcResult where
  | pause (s : State) (p : SvcPoint)
  | done (s : State)
  | halt (e : Stop) (s : State)
  deriving DecidableEq, Repr

/-- R214: H3, on the snapshot `f`. Its access ends the step (R71), and H4 is a step of its own; on a device that is not ready
to send there is no access, and the step runs on to H4. -/
def serviceRefill (f : DevFlags) (s : State) : SvcResult :=
  if f.trdy then
    if s.tx.count = 0 then .pause (setIer { s.ier with txe := false } s) .h4
    else
      match bufTake s.inst.txCap s.tx with
      | .error e => .halt e s
      | .ok (v, tx') =>
        match devWriteTx v s with
        | .error e => .halt e s
        | .ok s1 => .pause { s1 with tx := tx' } .h4
  else .done s

/-- R213: the head of the drain loop with `k` bytes drained, up to and including the status re-read. -/
def serviceLoop (f : DevFlags) (k : Nat) (s : State) : SvcResult :=
  if k < s.inst.hwRxDepth then
    if (devStatus s).rrdy then .pause s (.h2read f k) else .pause s (.h3 f)
  else serviceRefill f s

/-- R213: H2, on the snapshot `f`. -/
def serviceDrain (f : DevFlags) (s : State) : SvcResult :=
  if f.rrdy then serviceLoop f 0 s else serviceRefill f s

/-- R213: the byte v goes to `rx`, or sets the overrun bit and is dropped. -/
def serviceDeposit (v : Byte) (s : State) : Except Stop State :=
  if s.rx.count = s.inst.rxCap then .ok { s with sticky := { s.sticky with oe := true } }
  else (bufPush s.inst.rxCap s.rx v).map fun rx' => { s with rx := rx' }

/-- R211 to R214: one atomic step of SERVICE from the point `p` (R71). -/
def serviceStep (p : SvcPoint) (s : State) : SvcResult :=
  match p with
  | .h0 => .pause s (.h1 (devStatus s))
  | .h1 f =>
    if f.anyError then .pause (devClearErr { s with sticky := s.sticky.latch f }) (.h2 f)
    else serviceDrain f s
  | .h2 f => serviceDrain f s
  | .h2read f k =>
    match devReadRx s with
    | .error e => .halt e s
    | .ok (v, s1) => .pause s1 (.h2push f k v)
  | .h2push f k v =>
    match serviceDeposit v s with
    | .error e => .halt e s
    | .ok s1 => serviceLoop f (k + 1) s1
  | .h3 f => serviceRefill f s
  | .h4 => .done s

end Sys2Proof.Machine
end

