-- ==== Sys2Proof/Machine/Uart.lean ====
section
/-!
DEFINITION. The UART.* commands (spec 42_transport.md R170 to R191, 43_handler.md R216). A command that makes more than one
device access or counter sample spans several FG steps (20_memory.md R71): each meaning runs the step at the point that
`fg` holds, and the first step where `fg` holds none (DEDUCED, log entry 8).
-/

namespace Sys2Proof.Machine

/-! Admission. -/

/-- R170: the three kinds of row in the lifecycle admission table. -/
inductive AdmitKind where
  | create
  | configure
  | use
  deriving DecidableEq, Repr

/-- R170: the lifecycle admission table. -/
def uartAdmit (k : AdmitKind) (lc : Lifecycle) : Option FaultCode :=
  match lc, k with
  | .destroyed, _ => some .destroyed
  | .unconstructed, .create => none
  | .unconstructed, _ => some .notConstructed
  | .ready, .create => some .alreadyConstructed
  | .ready, _ => none
  | .setupFailed, .create => some .alreadyConstructed
  | .setupFailed, .configure => none
  | .setupFailed, .use => some .setupFailedUse

/-- R170: a fault entry of the table raises that fault and writes no other state. -/
def admitted (k : AdmitKind) (s : State) (body : Outcome) : Outcome :=
  match uartAdmit k s.lc with
  | some c => .next (raiseFault c s)
  | none => body

/-! Construction and setup. -/

/-- R174: SetupCore up to and including DevConfigure. -/
def setupConfigure (i : Instr) (cfg : LineConfig) (s : State) : Outcome :=
  let s1 : State :=
    { s with
      inCS := true
      irqc := if s.inst.irq.isSome then { s.irqc with enabled := false } else s.irqc }
  pauseAt i (.setupCtrl cfg) (devConfigure cfg (divisor s.inst cfg.bitrate) s1)

/-- R174: SetupCore from the buffers up to and including DevWriteCtrl. `irqc.registered` is written as R174 says, for
CREATE and for SETUP alike (R283: log entry 22). -/
def setupComplete (i : Instr) (cfg : LineConfig) (s : State) : Outcome :=
  let s1 : State :=
    { s with
      tx := bufClear s.tx
      rx := bufClear s.rx
      sticky := .zero
      lcfg := cfg
      fp := framePeriod cfg
      irqc := if s.inst.irq.isSome then { s.irqc with registered := true } else s.irqc }
  pauseAt i .setupEnd (setIer .setup s1)

/-- R174: the rest of SetupCore after its last access, and the end of the command. `irqc.enabled` is written as R174 says, for
CREATE and for SETUP alike (R283: log entry 22). -/
def setupFinish (s : State) : Outcome :=
  .next <| finish .ok 0#32
    { s with
      irqc := if s.inst.irq.isSome then { s.irqc with enabled := true } else s.irqc
      inCS := false
      lc := .ready }

/-- R175, R176: validation, then SetupCore; a failure writes `lc` alone and ends with ERR_CONFIG. -/
def setupStart (k : AdmitKind) (i : Instr) (lc : LineReq) (s : State) : Outcome :=
  admitted k s <|
    match validate s.inst s.port.opa lc with
    | none => .next (finish .errConfig 0#32 { s with lc := .setupFailed })
    | some cfg => setupConfigure i cfg s

/-- R174 to R176: a command that runs SetupCore, at the point FG has reached. -/
def setupCommand (k : AdmitKind) (i : Instr) (lc : LineReq) (s : State) : Outcome :=
  match s.fg.point with
  | some (.setupCtrl cfg) => setupComplete i cfg s
  | some .setupEnd => setupFinish s
  | _ => setupStart k i lc s

/-- R175: UART.CREATE. -/
def execUartCreate (lc : LineReq) (s : State) : Outcome := setupCommand .create (.uartCreate lc) lc s

/-- R176: UART.SETUP. -/
def execUartSetup (lc : LineReq) (s : State) : Outcome := setupCommand .configure (.uartSetup lc) lc s

/-! Receiving. -/

/-- R177: UART.GET, one critical section with no device access. -/
def execUartGet (s : State) : Outcome :=
  admitted .use s <|
    let s1 := csEnter s
    if s1.rx.count = 0 then .next (finish .errNoData 0#32 (csExit s1))
    else
      onOk (bufTake s1.inst.rxCap s1.rx) s1 fun r =>
        .next (finish .ok (r.1.setWidth 32) (csExit { s1 with rx := r.2 }))

/-- R180: UART.READ, all or nothing. -/
def execUartRead (n : Nat) (s : State) : Outcome :=
  admitted .use s <|
    let s1 := csEnter s
    if s1.rx.count < n then .next (finish .errNoData 0#32 (csExit s1))
    else
      onOk (bufTakeMany s1.inst.rxCap n s1.rx) s1 fun r =>
        .next (finishWith .ok 0#32 r.1 (csExit { s1 with rx := r.2 }))

/-! Sending. -/

/-- R178: what PutCore returns after its status read. `sent` ends an atomic step (a device access), `queued` does not. -/
inductive PutResult where
  | sent (s : State)
  | queued (s : State)
  | full
  deriving DecidableEq, Repr

/-- R178: PutCore(v) after its status read `f`: fast path, rotate, queue or full. -/
def putCore (v : Byte) (f : DevFlags) (s : State) : Except Stop PutResult :=
  if f.trdy && decide (s.tx.count = 0) then (devWriteTx v s).map .sent
  else if f.trdy then
    match bufTake s.inst.txCap s.tx with
    | .error e => .error e
    | .ok (w, tx1) =>
      match devWriteTx w s, bufPush s.inst.txCap tx1 v with
      | .error e, _ => .error e
      | _, .error e => .error e
      | .ok s1, .ok tx2 => .ok (.sent { s1 with tx := tx2 })
  else if s.tx.count < s.inst.txCap then
    (bufPush s.inst.txCap s.tx v).map fun tx1 => .queued { s with tx := tx1 }
  else .ok .full

/-- R179, R181: `ier.TXE <- 1; DevWriteCtrl(ier)`, whose access ends the step. -/
def putArm (i : Instr) (s : State) : Outcome := pauseAt i .putEnd (setIer { s.ier with txe := true } s)

/-- R179, R181: after the last access, the end of the critical section and of the command. -/
def putEnd (s : State) : Outcome := .next (finish .ok 0#32 (csExit s))

/-- R179: the first step of PUT, up to and including PutCore's status read. -/
def putStart (v : Byte) (s : State) : Outcome :=
  admitted .use s <|
    let s1 := csEnter s
    pauseAt (.uartPut v) (.putGot (devStatus s1)) s1

/-- R178, R179: PUT after PutCore's status read. -/
def putDecide (v : Byte) (f : DevFlags) (s : State) : Outcome :=
  onOk (putCore v f s) s fun r =>
    match r with
    | .sent s1 => pauseAt (.uartPut v) .putCtrl s1
    | .queued s1 => putArm (.uartPut v) s1
    | .full => .next (finish .errFull 0#32 (csExit s))

/-- R179: UART.PUT. -/
def execUartPut (v : Byte) (s : State) : Outcome :=
  match s.fg.point with
  | some (.putGot f) => putDecide v f s
  | some .putCtrl => putArm (.uartPut v) s
  | some .putEnd => putEnd s
  | _ => putStart v s

/-- R181: the loop of WRITE with the bytes `rest` still to put, up to the next device access. TXE is set after the last byte
(log entry 21). -/
def writeLoop (n : Nat) (rest : List Byte) (s : State) : Outcome :=
  match rest with
  | [] => putArm (.uartWrite n) s
  | _ :: _ => pauseAt (.uartWrite n) (.writeGot rest (devStatus s)) s

/-- R181: the first step of WRITE. The capacity check comes first; n = 0 writes nothing, not even `ier`.
R105 has made DIN hold exactly n bytes (log entry 17). -/
def writeStart (n : Nat) (s : State) : Outcome :=
  admitted .use s <|
    let s1 := csEnter s
    if s1.inst.txCap < s1.tx.count + n then .next (finish .errFull 0#32 (csExit s1))
    else if n = 0 then .next (finish .ok 0#32 (csExit s1))
    else writeLoop n (s1.port.din.take n) s1

/-- R181: WRITE after PutCore's status read; what PutCore returns is not tested ("never returns FULL"). -/
def writeDecide (n : Nat) (rest : List Byte) (f : DevFlags) (s : State) : Outcome :=
  match rest with
  | [] => putArm (.uartWrite n) s
  | v :: vs =>
    onOk (putCore v f s) s fun r =>
      match r with
      | .sent s1 => pauseAt (.uartWrite n) (.writeNext vs) s1
      | .queued s1 => writeLoop n vs s1
      | .full => writeLoop n vs s

/-- R181: UART.WRITE. -/
def execUartWrite (n : Nat) (s : State) : Outcome :=
  match s.fg.point with
  | some (.writeGot rest f) => writeDecide n rest f s
  | some (.writeNext rest) => writeLoop n rest s
  | some .putEnd => putEnd s
  | _ => writeStart n s

/-! Clear and queries. -/

/-- R182: UART.CLEAR. `ier` is not changed. -/
def execUartClear (s : State) : Outcome :=
  admitted .use s <|
    let s1 := csEnter s
    .next (finish .ok 0#32 (csExit { s1 with tx := bufClear s1.tx, rx := bufClear s1.rx, sticky := .zero }))

/-- R187: UART.FRAMEPERIOD; no critical section. -/
def execUartFrameperiod (s : State) : Outcome :=
  admitted .use s (.next (finish .ok s.fp s))

/-- R188 to R190: a query of one sticky bit, in a critical section; it does not clear the bit. -/
def stickyQuery (bit : Sticky → Bool) (s : State) : Outcome :=
  admitted .use s (.next (finish .ok (boolWord (bit s.sticky)) (csExit (csEnter s))))

/-- R188: UART.OVERRUN. -/
def execUartOverrun (s : State) : Outcome := stickyQuery Sticky.oe s

/-- R189: UART.FRAMING. -/
def execUartFraming (s : State) : Outcome := stickyQuery Sticky.fe s

/-- R190: UART.PARITY. -/
def execUartParity (s : State) : Outcome := stickyQuery Sticky.pe s

/-! Flush. -/

/-- R183, R184 D0: the prelude and the first base sample. -/
def flushStart (s : State) : Outcome :=
  admitted .use s <|
    let s1 := ensureInit s
    onOk (convUs s1.inst.ctrHz s1.fp) s1 fun fpc =>
      onOk (idleBoundOf s1.inst.hwTxDepth fpc) s1 fun bound =>
        pauseAt .uartFlush (.flushDrain fpc bound s1.ctr.cnt) s1

/-- R184 D0: a new base after a byte is sent. -/
def flushBase (fpc bound : Word) (s : State) : Outcome :=
  let s1 := ensureInit s
  pauseAt .uartFlush (.flushDrain fpc bound s1.ctr.cnt) s1

/-- R184 D1: the critical section is entered; with `tx` empty it is left again for I0's base sample (R185), and otherwise
the status is read. -/
def flushDrain (fpc bound base : Word) (s : State) : Outcome :=
  let s1 := csEnter s
  if s1.tx.count = 0 then
    let s2 := ensureInit (csExit s1)
    pauseAt .uartFlush (.flushIdle fpc bound s2.ctr.cnt) s2
  else pauseAt .uartFlush (.flushGot fpc bound base (devStatus s1)) s1

/-- R184 D1, after the status read `f`: send the oldest byte and restart the bound, or leave the section for D2. -/
def flushSend (fpc bound base : Word) (f : DevFlags) (s : State) : Outcome :=
  if f.trdy then
    onOk (bufTake s.inst.txCap s.tx) s fun r =>
      onOk (devWriteTx r.1 s) s fun s1 =>
        pauseAt .uartFlush (.flushBase fpc bound) (csExit { s1 with tx := r.2 })
  else pauseAt .uartFlush (.flushBound fpc bound base) (csExit s)

/-- R184 D2: a sample against the drain bound. -/
def flushBound (fpc bound base : Word) (s : State) : Outcome :=
  let s1 := ensureInit s
  if fpc ≤ diff s1.inst.ctrDir base s1.ctr.cnt then .next (finish .errStall 0#32 s1)
  else pauseAt .uartFlush (.flushDrain fpc bound base) s1

/-- R185 I1: one status read in a critical section of its own. -/
def flushIdle (fpc bound base : Word) (s : State) : Outcome :=
  let s1 := csEnter s
  pauseAt .uartFlush (.flushTest fpc bound base (devStatus s1)) (csExit s1)

/-- R186 E1: TXE is cleared, in a critical section of its own. -/
def flushEnd (s : State) : Outcome :=
  let s1 := csEnter s
  pauseAt .uartFlush .flushDone (csExit (setIer { s1.ier with txe := false } s1))

/-- R186: after E1, the end of the command. -/
def flushFinish (s : State) : Outcome := .next (finish .ok 0#32 s)

/-- R185, R186: the idle test on the status read `f`. Idle: E1 on NIOS, E0's Wait(fpc) on MICROBLAZE. Not idle: I2's sample
against the idle bound. -/
def flushTest (fpc bound base : Word) (f : DevFlags) (s : State) : Outcome :=
  if devIdle s.inst.platform f then
    match s.inst.platform with
    | .nios => flushEnd s
    | .microblaze =>
      let s1 := ensureInit s
      pauseAt .uartFlush (.flushWait fpc s1.ctr.cnt) s1
  else
    let s1 := ensureInit s
    if bound ≤ diff s1.inst.ctrDir base s1.ctr.cnt then .next (finish .errStall 0#32 s1)
    else pauseAt .uartFlush (.flushIdle fpc bound base) s1

/-- R186 E0 on MICROBLAZE: one sample of Wait(fpc). -/
def flushWait (fpc base : Word) (s : State) : Outcome :=
  let s1 := ensureInit s
  if fpc ≤ diff s1.inst.ctrDir base s1.ctr.cnt then pauseAt .uartFlush .flushEnd s1
  else pauseAt .uartFlush (.flushWait fpc base) s1

/-- R183 to R186: UART.FLUSH. -/
def execUartFlush (s : State) : Outcome :=
  match s.fg.point with
  | some (.flushBase fpc bound) => flushBase fpc bound s
  | some (.flushDrain fpc bound base) => flushDrain fpc bound base s
  | some (.flushGot fpc bound base f) => flushSend fpc bound base f s
  | some (.flushBound fpc bound base) => flushBound fpc bound base s
  | some (.flushIdle fpc bound base) => flushIdle fpc bound base s
  | some (.flushTest fpc bound base f) => flushTest fpc bound base f s
  | some (.flushWait fpc base) => flushWait fpc base s
  | some .flushEnd => flushEnd s
  | some .flushDone => flushFinish s
  | _ => flushStart s

/-! Destruction and the command form of the handler. -/

/-- R191: DESTROY up to and including DevZero. `ier` is written in the step that writes `dev.ctrl` (R28). -/
def destroyStart (s : State) : Outcome :=
  admitted .configure s <|
    let s1 : State := { s with inCS := true, irqc := if s.inst.irq.isSome then ⟨false, false⟩ else s.irqc }
    pauseAt .uartDestroy .destroyEnd { devZero s1 with ier := .zero }

/-- R191: the rest of DESTROY after its access. -/
def destroyFinish (s : State) : Outcome := .next (finish .ok 0#32 { s with inCS := false, lc := .destroyed })

/-- R191: UART.DESTROY. -/
def execUartDestroy (s : State) : Outcome :=
  match s.fg.point with
  | some .destroyEnd => destroyFinish s
  | _ => destroyStart s

/-- R216: what a step of SERVICE means for the command UART.SERVICE. -/
def serviceCommand (r : SvcResult) : Outcome :=
  match r with
  | .pause s p => pauseAt .uartService (.svc p) s
  | .done s => .next (finish .ok 0#32 (csExit s))
  | .halt e s => e.outcome s

/-- R216: UART.SERVICE, `CS { Service() }; finish(OK, 0)`. -/
def execUartService (s : State) : Outcome :=
  match s.fg.point with
  | some (.svc p) => serviceCommand (serviceStep p s)
  | _ => admitted .use s (serviceCommand (serviceStep .h0 (csEnter s)))

end Sys2Proof.Machine
end

