-- ==== Sys2Proof/Machine/Agents.lean ====
section
/-!
DEFINITION. The agents other than FG (spec 00_scope.md R10): HOST (10_state.md R48), ISR (60_exceptions.md R258, 43_handler.md
R215), DEV (44_device.md R240 to R242) and CTR (41_counter.md R141). A turn given to an agent that is not enabled changes
nothing (20_memory.md R70 lets only an enabled agent step; DESIGN CHOICE, log entry 9).
-/

namespace Sys2Proof.Machine

/-- R48: what presenting a command writes; it starts the FG continuation. -/
def presented (cmd opa opb : Word) (din : List Byte) (s : State) : State :=
  { s with
    fg := .presented
    port := { s.port with cmd := cmd, opa := opa, opb := opb, din := din, busy := true } }

/-- R48, U47: the HOST presents a command; while `port.busy` = 1 or `fault` ≠ 0 that is no legal HOST step. -/
def hostStep (cmd opa opb : Word) (din : List Byte) (s : State) : Outcome :=
  if s.port.busy || decide (s.fault ≠ 0#8) then .refused .hostProtocol
  else .next (presented cmd opa opb din s)

/-- R215: what a step of SERVICE means for the ISR agent. -/
def serviceIsr (r : SvcResult) : Outcome :=
  match r with
  | .pause s p => .next { s with isr := .active p }
  | .done s => .next (leaveService s)
  | .halt e s => e.outcome s

/-- R72, R215, R258: a turn of the ISR agent. After a fault it takes no step (R252). -/
def isrStep (s : State) : Outcome :=
  if s.fault ≠ 0#8 then .next s
  else
    match s.isr with
    | .inactive => .next (if deliverable s then enterService s else s)
    | .active p => serviceIsr (serviceStep p s)

/-- R240: `RxArrive(v, p, f)`, enabled in every state. -/
def rxArrive (v : Byte) (p f : Bool) (s : State) : State :=
  let d := { s.dev with lineIn := s.dev.lineIn ++ [(⟨v, p, f⟩ : Frame)] }
  if s.dev.rxq.length = s.inst.hwRxDepth then { s with dev := { d with roe := true } }
  else { s with dev := { d with rxq := d.rxq ++ [v], pe := d.pe || p, fe := d.fe || f } }

/-- R241: `TxLoad`, enabled when the shifter is empty and `txq` is not. -/
def txLoad (s : State) : State :=
  match s.dev.shifter, s.dev.txq with
  | none, v :: q => { s with dev := { s.dev with shifter := some v, txq := q } }
  | _, _ => s

/-- R242: `TxDone`, enabled when the shifter holds a byte. -/
def txDone (s : State) : State :=
  match s.dev.shifter with
  | some v => { s with dev := { s.dev with lineOut := s.dev.lineOut ++ [v], shifter := none } }
  | none => s

/-- R141: one tick, enabled once the counter is initialized. -/
def ctrTick (s : State) : State :=
  if s.ctr.init then { s with ctr := { s.ctr with cnt := ctrNext s.inst.ctrDir s.ctr.cnt } } else s

end Sys2Proof.Machine
end

