-- ==== Sys2Proof/Machine/Device.lean ====
section
/-!
DEFINITION. The register view of the device (spec 20_memory.md R61, R67; 44_device.md R232 to R239): the status and control
words DEV_MAP lays out, and what the device does on one 32-bit MemRead or MemWrite. The meanings execute the effects on
`dev` directly, as R232 allows; an obligation relates the two (DESIGN CHOICE, log entry 12). The address of a register is
BASE + off modulo 2^32 (DESIGN CHOICE, log entry 23).
-/

namespace Sys2Proof.Machine

/-- One bit of a register word. -/
def putBit (w : Word) (i : Nat) (b : Bool) : Word :=
  if b then w ||| (1#32 <<< i) else w &&& ~~~(1#32 <<< i)

/-- Several bits of a register word. -/
def putBits : List (Nat × Bool) → Word → Word
  | [], w => w
  | (i, b) :: l, w => putBit (putBits l w) i b

/-- R232: the bits a status word carries. -/
def statusBits (m : DevMap) (f : DevFlags) : List (Nat × Bool) :=
  [(m.rrdy, f.rrdy), (m.trdy, f.trdy), (m.txEmpty, f.txEmpty), (m.tmt, f.tmt), (m.pe, f.pe), (m.fe, f.fe),
    (m.roe, f.roe)]

/-- R232, U36: the status word; the bits DEV_MAP does not name are `junk`. -/
def statusWord (m : DevMap) (f : DevFlags) (junk : Word) : Word := putBits (statusBits m f) junk

/-- R233: a status word "decoded through DEV_MAP into the flags". -/
def decodeStatus (m : DevMap) (w : Word) : DevFlags where
  rrdy := w.getLsbD m.rrdy
  trdy := w.getLsbD m.trdy
  txEmpty := w.getLsbD m.txEmpty
  tmt := w.getLsbD m.tmt
  pe := w.getLsbD m.pe
  fe := w.getLsbD m.fe
  roe := w.getLsbD m.roe

/-- R236: `word(m)`, each enable at its DEV_MAP positions and 0 in every other bit. -/
def ctrlWord (m : DevMap) (e : Enables) : Word :=
  putBits (m.rxe.map (·, e.rxe) ++ m.txe.map (·, e.txe) ++ m.erre.map (·, e.erre)) 0#32

/-- R232: the enables a control word carries. -/
def decodeCtrl (m : DevMap) (w : Word) : Enables where
  rxe := m.rxe.all fun i => w.getLsbD i
  txe := m.txe.all fun i => w.getLsbD i
  erre := m.erre.all fun i => w.getLsbD i

/-- R237: the bit RST_RX of a control word, which the device does not store. -/
def resetBit (m : DevMap) : Word :=
  match m.rstRx with
  | some i => 1#32 <<< i
  | none => 0#32

/-- R237: whether a control word asks for the RX FIFO reset. -/
def asksReset (m : DevMap) (w : Word) : Bool :=
  match m.rstRx with
  | some i => w.getLsbD i
  | none => false

/-- R61: the address BASE + off of a register, 32 bits wide. R13's sums are unbounded and no rule says what an instance with
BASE + off at or above 2^32 addresses, nor refuses it (R65, U53 do not); the model takes the sum modulo 2^32 (DESIGN CHOICE,
log entry 23). -/
def regAddr (s : State) (off : Word) : Word := s.inst.base + off

/-- R61, R233, R234: the device's answer to `MemRead(addr, 4)`. The RX data byte is in bits [7:0]; the other bits of both
registers are free (U36). -/
def memRead (addr : Word) (s : State) : Except Stop (Word × State) :=
  if addr = regAddr s s.inst.devMap.offStatus then
    .ok (statusWord s.inst.devMap (devStatus s) (Config.freeBits s.draws), { s with draws := s.draws + 1 })
  else if addr = regAddr s s.inst.devMap.offRx then
    match devReadRx s with
    | .error e => .error e
    | .ok (v, s1) =>
      .ok (v.setWidth 32 ||| (Config.freeBits s.draws <<< 8), { s1 with draws := s1.draws + 1 })
  else .error (.stop .noRegister)

/-- R238: what the write of the divisor register leaves in `dev.cfg`. It changes the divisor alone; the frame format is what it
was, or free where there was none. -/
def writeDivisor (d : Word) (s : State) : State :=
  match s.dev.cfg with
  | some (cfg, _) => { s with dev := { s.dev with cfg := some (cfg, d) } }
  | none => { s with dev := { s.dev with cfg := some (Config.freeFormat s.draws, d) }, draws := s.draws + 1 }

/-- R238: "plus whatever frame-format write the platform needs". The spec gives it no register and no word, so the view has its
effect alone (DESIGN CHOICE, log entry 12). A device without a divisor gets a free one. -/
def writeFormat (cfg : LineConfig) (s : State) : State :=
  match s.dev.cfg with
  | some (_, d) => { s with dev := { s.dev with cfg := some (cfg, d) } }
  | none => { s with dev := { s.dev with cfg := some (cfg, Config.freeBits s.draws) }, draws := s.draws + 1 }

/-- R61, R235 to R239: the device's answer to `MemWrite(addr, 4, w)`. -/
def memWrite (addr w : Word) (s : State) : Except Stop State :=
  if addr = regAddr s s.inst.devMap.offTx then devWriteTx (w.extractLsb' 0 8) s
  else if addr = regAddr s s.inst.devMap.offCtrl then
    let s1 := devWriteCtrl (decodeCtrl s.inst.devMap w) s
    if asksReset s.inst.devMap w then
      .ok { s1 with dev := { s1.dev with rxq := [], pe := false, fe := false, roe := false } }
    else .ok s1
  else if addr = regAddr s s.inst.devMap.offDiv then .ok (writeDivisor w s)
  else if addr = regAddr s s.inst.devMap.offStatus ∧ w = 0#32 then
    .ok { s with dev := { s.dev with pe := false, fe := false, roe := false } }
  else .error (.stop .noRegister)

end Sys2Proof.Machine
end

