-- ==== Sys2Proof/Machine/Buf.lean ====
section
/-!
DEFINITION. The nine BUF.* commands (spec 40_buffer.md R125 to R134). Each is one FG step and one critical section.
-/

namespace Sys2Proof.Machine

/-- R125, R260: admission of a BUF.* command, lifecycle first and then the buffer's initialization. -/
def bufAdmit (isClear : Bool) (b : BufId) (s : State) : Option FaultCode :=
  if s.lc = .destroyed then some .destroyed
  else if !isClear && !(s.buf b).init then some .bufUninit
  else none

/-- R125: `BufCommand(op)`, where the body gives the buffer it leaves and the result. A fault the body raises leaves the
critical section open (R252). -/
def bufCommand (isClear : Bool) (b : BufId) (body : Nat → Buffer → Except Stop (Buffer × Word)) (s : State) : Outcome :=
  match bufAdmit isClear b s with
  | some c => .next (raiseFault c s)
  | none =>
    let s1 := csEnter s
    onOk (body (s.cap b) (s.buf b)) s1 fun r => .next (finish .ok r.2 (csExit (s1.setBuf b r.1)))

/-- R126: BUF.CLEAR. -/
def execBufClear (b : BufId) (s : State) : Outcome :=
  bufCommand true b (fun _ x => .ok (bufClear x, 0#32)) s

/-- R127: BUF.PUSH. It does not write `ier`. -/
def execBufPush (b : BufId) (v : Byte) (s : State) : Outcome :=
  bufCommand false b (fun cap x => (bufPush cap x v).map fun y => (y, 0#32)) s

/-- R128: BUF.POP. -/
def execBufPop (b : BufId) (s : State) : Outcome :=
  bufCommand false b (fun cap x => (bufPop cap x).map fun y => (y, 0#32)) s

/-- R129: BUF.FRONT. -/
def execBufFront (b : BufId) (s : State) : Outcome :=
  bufCommand false b (fun cap x => (bufFront cap x).map fun v => (x, v.setWidth 32)) s

/-- R130: BUF.EMPTY. -/
def execBufEmpty (b : BufId) (s : State) : Outcome :=
  bufCommand false b (fun _ x => .ok (x, boolWord x.isEmpty)) s

/-- R131: BUF.FULL. -/
def execBufFull (b : BufId) (s : State) : Outcome :=
  bufCommand false b (fun cap x => .ok (x, boolWord (x.isFull cap))) s

/-- R132: BUF.SIZE. -/
def execBufSize (b : BufId) (s : State) : Outcome :=
  bufCommand false b (fun _ x => .ok (x, BitVec.ofNat 32 x.count)) s

/-- R133: BUF.AVAIL. -/
def execBufAvail (b : BufId) (s : State) : Outcome :=
  bufCommand false b (fun cap x => .ok (x, BitVec.ofNat 32 (cap - x.count))) s

/-- R134: BUF.MAXSIZE. -/
def execBufMaxsize (b : BufId) (s : State) : Outcome :=
  bufCommand false b (fun cap x => .ok (x, BitVec.ofNat 32 cap)) s

end Sys2Proof.Machine
end

