-- ==== Sys2Proof/Machine/Ctr.lean ====
section
/-!
DEFINITION. The twelve CTR.* commands (spec 41_counter.md R148 to R161). They are admitted in every lifecycle state and take
no critical section (R148).
-/

namespace Sys2Proof.Machine

/-- A CTR.* command that computes its result from its operands and neither reads nor initializes the counter (R144). -/
def ctrPure (r : Except Stop Word) (s : State) : Outcome :=
  onOk r s fun v => .next (finish .ok v s)

/-- R149: CTR.NOW, one FG step (R148). -/
def execCtrNow (s : State) : Outcome :=
  let s1 := ensureInit s
  .next (finish .ok s1.ctr.cnt s1)

/-- R150: CTR.NS2CNT. -/
def execCtrNs2cnt (s : State) : Outcome := ctrPure (convNs s.inst.ctrHz s.port.opa) s

/-- R151: CTR.US2CNT. -/
def execCtrUs2cnt (s : State) : Outcome := ctrPure (convUs s.inst.ctrHz s.port.opa) s

/-- R152: CTR.MS2CNT. -/
def execCtrMs2cnt (s : State) : Outcome := ctrPure (convMs s.inst.ctrHz s.port.opa) s

/-- R153: CTR.DIFF. -/
def execCtrDiff (s : State) : Outcome := ctrPure (.ok (operandDiff s)) s

/-- R154: CTR.TIMEOUT, one FG step (R148); the comparison is unsigned. -/
def execCtrTimeout (s : State) : Outcome :=
  let s1 := ensureInit s
  let elapsed := diff s1.inst.ctrDir s1.port.opa s1.ctr.cnt
  .next (finish .ok (boolWord (decide (s1.port.opb ≤ elapsed))) s1)

/-- R156 to R158 with R155: the first step of a wait, up to and including the base sample. The fault of the conversion comes
after CtrEnsureInit, whose writes stay (R252). -/
def waitStart (i : Instr) (conv : Nat → Word → Except Stop Word) (s : State) : Outcome :=
  let s1 := ensureInit s
  onOk (conv s1.inst.ctrHz s1.port.opa) s1 fun t => pauseAt i (.waitSample t s1.ctr.cnt) s1

/-- R155: one sample of the wait loop, outside any critical section. -/
def waitSample (i : Instr) (t base : Word) (s : State) : Outcome :=
  let s1 := ensureInit s
  if t ≤ diff s1.inst.ctrDir base s1.ctr.cnt then .next (finish .ok 0#32 s1)
  else pauseAt i (.waitSample t base) s1

/-- R155 to R158: a CTR.WAIT* command at the point FG has reached. -/
def waitCommand (i : Instr) (conv : Nat → Word → Except Stop Word) (s : State) : Outcome :=
  match s.fg.point with
  | some (.waitSample t base) => waitSample i t base s
  | _ => waitStart i conv s

/-- R156: CTR.WAITNS. -/
def execCtrWaitns (s : State) : Outcome := waitCommand .ctrWaitns convNs s

/-- R157: CTR.WAITUS. -/
def execCtrWaitus (s : State) : Outcome := waitCommand .ctrWaitus convUs s

/-- R158: CTR.WAITMS. -/
def execCtrWaitms (s : State) : Outcome := waitCommand .ctrWaitms convMs s

/-- R159: CTR.MEASNS. -/
def execCtrMeasns (s : State) : Outcome := ctrPure (measNs s.inst.ctrHz (operandDiff s)) s

/-- R160: CTR.MEASUS. -/
def execCtrMeasus (s : State) : Outcome := ctrPure (measUs s.inst.ctrHz (operandDiff s)) s

/-- R161: CTR.MEASMS. -/
def execCtrMeasms (s : State) : Outcome := ctrPure (measMs s.inst.ctrHz (operandDiff s)) s

end Sys2Proof.Machine
end

