-- ==== Sys2Proof/Machine/Dispatch.lean ====
section
/-! DEFINITION. The dispatch from an instruction to its meaning: the step FG takes for a decoded command (spec 30_encoding.md R97). -/

namespace Sys2Proof.Machine

def exec (i : Instr) (s : State) : Host.Outcome State Fault Refusal :=
  match i with
  | .bufClear b => Sys2Proof.Machine.execBufClear b s
  | .bufPush b v => Sys2Proof.Machine.execBufPush b v s
  | .bufPop b => Sys2Proof.Machine.execBufPop b s
  | .bufFront b => Sys2Proof.Machine.execBufFront b s
  | .bufEmpty b => Sys2Proof.Machine.execBufEmpty b s
  | .bufFull b => Sys2Proof.Machine.execBufFull b s
  | .bufSize b => Sys2Proof.Machine.execBufSize b s
  | .bufAvail b => Sys2Proof.Machine.execBufAvail b s
  | .bufMaxsize b => Sys2Proof.Machine.execBufMaxsize b s
  | .ctrNow => Sys2Proof.Machine.execCtrNow s
  | .ctrNs2cnt => Sys2Proof.Machine.execCtrNs2cnt s
  | .ctrUs2cnt => Sys2Proof.Machine.execCtrUs2cnt s
  | .ctrMs2cnt => Sys2Proof.Machine.execCtrMs2cnt s
  | .ctrDiff => Sys2Proof.Machine.execCtrDiff s
  | .ctrTimeout => Sys2Proof.Machine.execCtrTimeout s
  | .ctrWaitns => Sys2Proof.Machine.execCtrWaitns s
  | .ctrWaitus => Sys2Proof.Machine.execCtrWaitus s
  | .ctrWaitms => Sys2Proof.Machine.execCtrWaitms s
  | .ctrMeasns => Sys2Proof.Machine.execCtrMeasns s
  | .ctrMeasus => Sys2Proof.Machine.execCtrMeasus s
  | .ctrMeasms => Sys2Proof.Machine.execCtrMeasms s
  | .uartSetup lc => Sys2Proof.Machine.execUartSetup lc s
  | .uartGet => Sys2Proof.Machine.execUartGet s
  | .uartPut v => Sys2Proof.Machine.execUartPut v s
  | .uartRead n => Sys2Proof.Machine.execUartRead n s
  | .uartWrite n => Sys2Proof.Machine.execUartWrite n s
  | .uartClear => Sys2Proof.Machine.execUartClear s
  | .uartFlush => Sys2Proof.Machine.execUartFlush s
  | .uartFrameperiod => Sys2Proof.Machine.execUartFrameperiod s
  | .uartOverrun => Sys2Proof.Machine.execUartOverrun s
  | .uartFraming => Sys2Proof.Machine.execUartFraming s
  | .uartParity => Sys2Proof.Machine.execUartParity s
  | .uartCreate lc => Sys2Proof.Machine.execUartCreate lc s
  | .uartDestroy => Sys2Proof.Machine.execUartDestroy s
  | .uartService => Sys2Proof.Machine.execUartService s

end Sys2Proof.Machine
end

