-- ==== Sys2Proof/Machine/Step.lean ====
section
/-!
DEFINITION. One step of the machine: one turn of one agent (spec 20_memory.md R70 to R72). The turn is the head of `sched`,
or a free one where `sched` is empty (log entry 4). `step` takes any order of turns; what R81 assumes of an endless order is
`Fair` of Fairness.lean, and time is not modelled (log entry 14).
-/

namespace Sys2Proof.Machine

/-- The turn taken next, and the state without it. -/
def nextTurn (s : State) : Event × State :=
  match s.sched with
  | e :: rest => (e, { s with sched := rest })
  | [] => (Config.freeEvent s.draws, { s with draws := s.draws + 1 })

/-- R36, R71, R98: a turn of FG. It takes no step after a fault (R252), while the ISR is active (R72) or when idle; at its
first step it decodes the command. -/
def fgStep (s : State) : Host.Outcome State Fault Refusal :=
  if s.fault ≠ 0#8 ∨ s.isr ≠ .inactive then .next s
  else
    match s.fg with
    | .idle => .next s
    | .presented =>
      match fetchCommand s with
      | .error e => rejectCommand e s
      | .ok i => exec i s
    | .running i _ => exec i s

/-- R70: the turn of one agent. -/
def takeTurn (e : Event) (s : State) : Host.Outcome State Fault Refusal :=
  match e with
  | .present cmd opa opb din => hostStep cmd opa opb din s
  | .fg => fgStep s
  | .isr => isrStep s
  | .rxArrive v p f => .next (rxArrive v p f s)
  | .txLoad => .next (txLoad s)
  | .txDone => .next (txDone s)
  | .tick => .next (ctrTick s)

/-- One step. An instance the spec does not admit is refused (U50 to U53). -/
def step (s : State) : Host.Outcome State Fault Refusal :=
  if s.inst.wf then takeTurn (nextTurn s).1 (nextTurn s).2 else .refused .illegalInstance

/-- The bytes a table word's instruction takes in DIN (R105), as zeros. -/
def zeroDin (w : Word) : List Byte :=
  match decode w with
  | .ok i => List.replicate i.dinLength 0#8
  | .error _ => []

/-- A command presented at the port with zero operands, and FG's turn next: what the HOST step of R48 does, done to a state
in which FG may take its first step (log entry 7). -/
def State.withFetchWord (s : State) (nbits w : Nat) : State :=
  let word := BitVec.ofNat 32 (w % 2 ^ min nbits 32)
  { presented word 0#32 0#32 (zeroDin word) s with
    sched := .fg :: s.sched
    fault := 0#8
    isr := .inactive }

end Sys2Proof.Machine
end

