-- ==== Sys2Proof/Safety.lean ====
section
/-!
DEFINITION. What counts as a safe run, in the terms claims use: the bytes a buffer holds, the order bytes go out in, the
invariant of every reachable state, and a command run by FG with no other agent's turn between its steps.
-/

namespace Sys2Proof.Machine

/-- The bytes a buffer holds, from head to tail (95_test_vectors.md section 0). -/
def Buffer.contents (cap : Nat) (b : Buffer) : List Byte :=
  (List.range b.count).map fun k => b.store.read ((b.head + k) % cap)

/-- R22: the invariants of an initialized buffer. -/
structure Buffer.Live (cap : Nat) (b : Buffer) : Prop where
  head_lt : b.head < cap
  tail_lt : b.tail < cap
  count_le : b.count ≤ cap
  tail_eq : b.tail = (b.head + b.count) % cap

/-- R21 to R24: a buffer in any state; the storage has its canonical form and no slot outside the buffer. -/
structure Buffer.Ok (cap : Nat) (b : Buffer) : Prop where
  wf : b.store.wf = true
  slots : ∀ c ∈ b.store, c.1 < cap
  live : b.init = true → b.Live cap

/-- Every byte accepted for transmission, in the order R193 gives them: out on the line, in the shifter, in the hardware
queue, in `tx`. -/
def State.txStream (s : State) : List Byte :=
  s.dev.lineOut ++ s.dev.shifter.toList ++ s.dev.txq ++ s.tx.contents s.inst.txCap

/-- R213: the byte SERVICE has read from the device and not yet put into `rx`. -/
def State.rxInHand (s : State) : List Byte :=
  match s.isr, s.fg with
  | .active (.h2push _ _ v), _ => [v]
  | _, .running _ (.svc (.h2push _ _ v)) => [v]
  | _, _ => []

/-- Every byte received and not yet taken by the HOST, oldest first: in `rx`, in SERVICE's hand, in the hardware queue (R75). -/
def State.rxStream (s : State) : List Byte := s.rx.contents s.inst.rxCap ++ s.rxInHand ++ s.dev.rxq

/-- The points of FG at which it is inside a critical section (R38). -/
def FgPoint.inSection : FgPoint → Bool
  | .setupCtrl _ | .setupEnd | .putGot _ | .putCtrl | .putEnd | .writeGot _ _ | .writeNext _ | .flushGot _ _ _ _
  | .destroyEnd | .svc _ => true
  | _ => false

/-- R38: FG is inside a critical section. -/
def FgState.inSection : FgState → Bool
  | .running _ p => p.inSection
  | _ => false

/-- A point belongs to the command whose step reaches it. -/
def FgPoint.fits : Instr → FgPoint → Bool
  | .uartCreate _, .setupCtrl _ => true
  | .uartSetup _, .setupCtrl _ => true
  | .uartCreate _, .setupEnd => true
  | .uartSetup _, .setupEnd => true
  | .uartPut _, .putGot _ => true
  | .uartPut _, .putCtrl => true
  | .uartPut _, .putEnd => true
  | .uartWrite _, .writeGot _ _ => true
  | .uartWrite _, .writeNext _ => true
  | .uartWrite _, .putEnd => true
  | .ctrWaitns, .waitSample _ _ => true
  | .ctrWaitus, .waitSample _ _ => true
  | .ctrWaitms, .waitSample _ _ => true
  | .uartFlush, .flushBase _ _ => true
  | .uartFlush, .flushDrain _ _ _ => true
  | .uartFlush, .flushGot _ _ _ _ => true
  | .uartFlush, .flushBound _ _ _ => true
  | .uartFlush, .flushIdle _ _ _ => true
  | .uartFlush, .flushTest _ _ _ _ => true
  | .uartFlush, .flushWait _ _ => true
  | .uartFlush, .flushEnd => true
  | .uartFlush, .flushDone => true
  | .uartDestroy, .destroyEnd => true
  | .uartService, .svc _ => true
  | _, _ => false

/-- R214, R178, R184: a status read that saw transmit-ready stays true until the block itself writes the TX register. -/
def TrdyHolds (f : DevFlags) (s : State) : Prop :=
  f.trdy = true → s.dev.txq.length < s.inst.hwTxDepth

/-- R213, R214: what holds at each point of SERVICE. -/
def SvcOk (p : SvcPoint) (s : State) : Prop :=
  match p with
  | .h0 | .h4 => True
  | .h1 f | .h2 f | .h3 f => TrdyHolds f s
  | .h2read f k => TrdyHolds f s ∧ k < s.inst.hwRxDepth ∧ s.dev.rxq ≠ []
  | .h2push f k _ => TrdyHolds f s ∧ k < s.inst.hwRxDepth

/-- What holds at each point of a command in progress. -/
def FgPointOk (p : FgPoint) (s : State) : Prop :=
  match p with
  | .setupCtrl _ => s.lc ≠ .destroyed
  | .setupEnd =>
    s.lc ≠ .destroyed ∧ s.tx.init = true ∧ s.rx.init = true ∧ s.tx.count = 0 ∧
      (s.inst.irq.isSome = true → s.irqc.registered = true)
  | .destroyEnd => (s.lc = .ready ∨ s.lc = .setupFailed) ∧ s.irqc.registered = false
  | .putGot f => s.lc = .ready ∧ TrdyHolds f s
  | .putCtrl => s.lc = .ready
  | .putEnd => s.lc = .ready ∧ s.ier.txe = true
  | .writeGot rest f =>
    s.lc = .ready ∧ TrdyHolds f s ∧ rest ≠ [] ∧ s.tx.count + rest.length ≤ s.inst.txCap
  | .writeNext rest => s.lc = .ready ∧ s.tx.count + rest.length ≤ s.inst.txCap
  | .waitSample _ _ => s.ctr.init = true
  | .flushGot _ _ _ f => s.lc = .ready ∧ s.ctr.init = true ∧ TrdyHolds f s ∧ s.tx.count ≠ 0
  | .flushBase _ _ | .flushDrain _ _ _ | .flushBound _ _ _ => s.lc = .ready ∧ s.ctr.init = true
  | .flushIdle _ _ _ | .flushTest _ _ _ _ | .flushWait _ _ | .flushEnd | .flushDone =>
    s.lc = .ready ∧ s.ctr.init = true ∧ s.tx.count = 0
  | .svc p => s.lc = .ready ∧ SvcOk p s

/-- What holds of the FG continuation. -/
def FgOk (s : State) : Prop :=
  match s.fg with
  | .running i p => p.fits i = true ∧ FgPointOk p s
  | _ => True

/-- What holds of the ISR continuation (R72, R258). -/
def IsrOk (s : State) : Prop :=
  match s.isr with
  | .inactive => True
  | .active p =>
    SvcOk p s ∧ s.inCS = false ∧ s.irqc.registered = true ∧ s.inst.irq.isSome = true

/-- FG is inside SetupCore or DESTROY, which write `irqc` themselves and use no `CS` of R73 (R174, R191). -/
def FgState.setsIrqc : FgState → Bool
  | .running _ (.setupCtrl _) | .running _ .setupEnd | .running _ .destroyEnd => true
  | _ => false

/-- R31, R73, R174, R191: the interrupt controller's state. Outside a critical section the source is enabled exactly when the
handler is installed; inside one it is disabled, and `saved` holds what the exit restores. That a READY transport with an
interrupt has its handler installed follows R174, after a failed CREATE too (DEDUCED, log entry 22), and so does what `saved` holds
where SetupCore runs. -/
structure IrqOk (s : State) : Prop where
  absent : s.inst.irq = none → s.irqc = ⟨false, false⟩
  outside : s.fault = 0#8 → s.inCS = false → s.irqc.enabled = s.irqc.registered
  inside : s.fault = 0#8 → s.inCS = true → s.irqc.enabled = false
  kept : s.fault = 0#8 → s.inst.irq.isSome = true → s.inCS = true → s.fg.setsIrqc = true ∨ s.saved = s.irqc.registered
  ready : s.lc = .ready → s.inst.irq.isSome = true → s.irqc.registered = true ∨ s.fg = .running .uartDestroy .destroyEnd
  unready : s.lc = .unconstructed ∨ s.lc = .destroyed → s.irqc.registered = false ∨ ∃ i, s.fg = .running i .setupEnd

/-- The invariant of every reachable state. -/
structure Inv (s : State) : Prop where
  inst : s.inst.wf = true
  tx : s.tx.Ok s.inst.txCap
  rx : s.rx.Ok s.inst.rxCap
  rxq : s.dev.rxq.length ≤ s.inst.hwRxDepth
  txq : s.dev.txq.length ≤ s.inst.hwTxDepth
  ier : s.ier = s.dev.ctrl
  init : s.lc = .ready ∨ s.irqc.registered = true → s.tx.init = true ∧ s.rx.init = true
  busy : s.port.busy = true ↔ s.fg ≠ .idle
  section_ : s.fault = 0#8 → s.inCS = s.fg.inSection
  halted : s.fault ≠ 0#8 → s.fg = .idle ∧ s.isr = .inactive
  code : s.fault.toNat ≤ 12
  status : s.port.sts.toNat ≤ 4 ∨ s.port.sts = 0xFF#8
  fg : FgOk s
  isr : IsrOk s
  irq : IrqOk s

/-- `k` FG steps of one command with no other agent's turn between them. -/
def execSteps : Nat → Instr → State → Outcome
  | 0, _, s => .next s
  | k + 1, i, s =>
    match exec i s with
    | .next t => execSteps k i t
    | .fault r => .fault r
    | .refused r => .refused r

/-- The next state an outcome holds, if it holds one. -/
def nextOf (o : Outcome) : Option State :=
  match o with
  | .next t => some t
  | _ => none

/-- R46, R98: FG may take the first step of the command the port holds: none of its points is reached yet. -/
def AtStart (s : State) : Prop := s.fg.point = none

/-! The terms claims are written in. Each is spelled out from the spec's rule, not from the meanings. -/

/-- R47: the state after a command ends with a status code, a result and DOUT. -/
def State.answered (s : State) (sts : BitVec 8) (res : Word) (dout : List Byte) : State :=
  { s with
    fg := .idle
    port :=
      { cmd := s.port.cmd, opa := s.port.opa, opb := s.port.opb, din := s.port.din
        sts := sts, res := res, dout := dout, busy := false } }

/-- R252: the state after a fault with a code. -/
def State.faulted (s : State) (code : BitVec 8) : State :=
  { s.answered 0xFF#8 0#32 [] with fault := code, isr := .inactive }

/-- R73: the state after CS_enter. -/
def State.sectionOpen (s : State) : State :=
  if s.inst.irq.isSome then { s with saved := s.irqc.enabled, irqc := ⟨s.irqc.registered, false⟩, inCS := true }
  else { s with inCS := true }

/-- R73: the state after CS_exit. -/
def State.sectionClosed (s : State) : State :=
  if s.inst.irq.isSome then { s with irqc := ⟨s.irqc.registered, s.saved⟩, inCS := false }
  else { s with inCS := false }

/-- R73: what a critical section leaves of the state beside what its body does: `irqc.enabled` is restored. -/
def State.sectionDone (s : State) : State :=
  if s.inst.irq.isSome then { s with saved := s.irqc.enabled, inCS := false } else { s with inCS := false }

/-- R28: `ier` and `dev.ctrl` written together. -/
def State.withEnables (s : State) (e : Enables) : State := { s with ier := e, dev := { s.dev with ctrl := e } }

/-- R144: the state with the counter initialized; a first use draws a free value. -/
def State.counterOn (s : State) : State :=
  if s.ctr.init then s else { s with ctr := ⟨true, Config.draw s.draws⟩, draws := s.draws + 1 }

/-- R154, R155: the counts elapsed since `base`. -/
def State.elapsed (s : State) (base : Word) : Word :=
  match s.inst.ctrDir with
  | .up => s.counterOn.ctr.cnt - base
  | .down => base - s.counterOn.ctr.cnt

/-- R170: the fault of a command that only READY admits. -/
def useFault : Lifecycle → BitVec 8
  | .unconstructed => 0x02#8
  | .ready => 0x00#8
  | .setupFailed => 0x03#8
  | .destroyed => 0x04#8

/-- R170: the lifecycle admission table, the code a command faults with, if the table has one. -/
def lifecycleFault (i : Instr) (lc : Lifecycle) : Option (BitVec 8) :=
  match i, lc with
  | .uartCreate _, .unconstructed => none
  | .uartCreate _, .ready => some 0x0C#8
  | .uartCreate _, .setupFailed => some 0x0C#8
  | .uartCreate _, .destroyed => some 0x04#8
  | .uartSetup _, .unconstructed => some 0x02#8
  | .uartSetup _, .destroyed => some 0x04#8
  | .uartSetup _, _ => none
  | .uartDestroy, .unconstructed => some 0x02#8
  | .uartDestroy, .destroyed => some 0x04#8
  | .uartDestroy, _ => none
  | .uartGet, lc | .uartPut _, lc | .uartRead _, lc | .uartWrite _, lc | .uartClear, lc | .uartFlush, lc
  | .uartFrameperiod, lc | .uartOverrun, lc | .uartFraming, lc | .uartParity, lc | .uartService, lc =>
    if lc = .ready then none else some (useFault lc)
  | _, _ => none

/-- R145, R146: the exact product a conversion or a wait computes from its duration. -/
def durationProduct (i : Instr) (hz x : Nat) : Nat :=
  match i with
  | .ctrNs2cnt | .ctrWaitns => x * ((hz * 1024 + 999999999) / 1000000000)
  | .ctrUs2cnt | .ctrWaitus => x * ((hz + 999999) / 1000000)
  | .ctrMs2cnt | .ctrWaitms => x * ((hz + 999) / 1000)
  | _ => 0

/-- R146: the counts a conversion or a wait takes from its product. -/
def durationCounts (i : Instr) (hz x : Nat) : Nat :=
  match i with
  | .ctrNs2cnt | .ctrWaitns => (durationProduct i hz x + 1023) / 1024
  | _ => durationProduct i hz x

/-- R95: the line configuration a command word carries, DBITS in [3:0], PAR in [5:4], STOP in [7:6] and FLOW in [9:8]. -/
def lineFields (w : Word) : LineReq where
  dbits := BitVec.ofNat 4 (w.toNat % 16)
  par :=
    match w.toNat / 16 % 4 with
    | 0 => .none
    | 1 => .even
    | 2 => .odd
    | _ => .reserved
  stop :=
    match w.toNat / 64 % 4 with
    | 0 => .one
    | 1 => .two
    | 2 => .reserved2
    | _ => .reserved3
  flow :=
    match w.toNat / 256 % 4 with
    | 0 => .none
    | 1 => .hw
    | 2 => .sw
    | _ => .reserved

/-- R97: a command's row, and R98, R99: what decoding does with every word of its opcode. -/
def Encodes (pattern mask : Word) (build : Word → Instr) : Prop :=
  ∀ w : Word, opcodeOf w = opcodeOf pattern →
    decode w = if w &&& mask = pattern then .ok (build w) else .error .reservedBitSet

/-- R193: the bytes UART.PUT and UART.WRITE accept at FG's next step. -/
def State.accepts (s : State) : List Byte :=
  match s.fg with
  | .running (.uartPut v) (.putGot f) => if f.trdy = true ∨ s.tx.count < s.inst.txCap then [v] else []
  | .running (.uartWrite _) (.writeGot (v :: _) _) => [v]
  | _ => []

/-- R193: the commands outside the TX order law, BUF.CLEAR, BUF.PUSH and BUF.POP on `tx`, and the ones that empty `tx`. -/
def editsTx : Instr → Bool
  | .bufClear .tx | .bufPush .tx _ | .bufPop .tx | .uartClear => true
  | _ => false

/-- R213: the bytes that `rx` loses or gains otherwise than from the device: the commands that take from `rx`, put into it or
empty it. -/
def editsRx : Instr → Bool
  | .bufClear .rx | .bufPush .rx _ | .bufPop .rx | .uartGet | .uartRead _ | .uartClear => true
  | _ => false

/-- R211 to R214: the point of SERVICE the next turn runs, as the ISR or as the command UART.SERVICE, if it runs one. -/
def State.servicePoint (s : State) : Option SvcPoint :=
  match (nextTurn s).1, s.isr, s.fg with
  | .isr, .active p, _ => some p
  | .fg, .inactive, .running _ (.svc p) => some p
  | _, _, _ => none

/-- R213: the next turn finds `rx` full and drops the byte SERVICE holds. -/
def State.dropsByte (s : State) : Prop := (∃ f k v, s.servicePoint = some (.h2push f k v)) ∧ s.rx.count = s.inst.rxCap

/-- R212, R237: the next turn clears the device's errors by resetting its RX FIFO. -/
def State.resetsFifo (s : State) : Prop :=
  ∃ f, s.servicePoint = some (.h1 f) ∧ (f.pe = true ∨ f.fe = true ∨ f.roe = true) ∧ s.inst.errClear = .resetRxFifo

/-- R33: "`tx.count` > 0 ⇒ `ier.TXE` = 1" on a transport in use, outside a UART.WRITE in progress and outside the last step of
a DESTROY, whose access has cleared TXE (log entry 21). -/
def TxArmed (s : State) : Prop :=
  s.fault = 0#8 → s.lc = .ready → s.tx.count ≠ 0 →
    s.ier.txe = true ∨ (∃ n p, s.fg = .running (.uartWrite n) p) ∨ s.fg = .running .uartDestroy .destroyEnd

/-- R136: a sequence of pushes (`some v`) and pops (`none`) on a buffer, if none of them faults. -/
def runBuffer (cap : Nat) : List (Option Byte) → Buffer → Except Stop Buffer
  | [], b => .ok b
  | some v :: ops, b =>
    match bufPush cap b v with
    | .ok c => runBuffer cap ops c
    | .error e => .error e
  | none :: ops, b =>
    match bufPop cap b with
    | .ok c => runBuffer cap ops c
    | .error e => .error e

/-- R192: two outcomes that agree in everything but `sticky`. -/
def SameButSticky : Outcome → Outcome → Prop
  | .next t, .next u => t = { u with sticky := t.sticky }
  | .fault a, .fault b => a = b
  | .refused a, .refused b => a = b
  | _, _ => False

end Sys2Proof.Machine
end

