-- ==== Sys2Proof/Certificates/Slice0/Obligations.lean ====
section
/-!
DEFINITION. The statements for the provers, each a definition `Obligations.<Name> : Prop` that says what the spec's rules say.
The terms `answered`, `faulted`, `sectionDone`, `counterOn` and the like are spelled out in Safety.lean from the rules. An
equation `exec i s = .next t` says the result and the whole frame: what `t` does not name is as in `s`.
-/

open Sys2Proof Sys2Proof.Machine

/-! ## Encoding and decoding -/

/-- R97 to R99: every row of the opcode table, with every word of its opcode: decoded when its reserved-zero bits are zero,
refused by name otherwise, the line configuration with every value of R95's fields. The opcodes of no row, exactly those R99 lists, are refused. -/
def Obligations.OpcodeTableDecodes : Prop :=
  Encodes 0x01000000#32 0xFFFEFFFF#32 (fun w => .bufClear (if w.getLsbD 16 then .rx else .tx)) ∧
  Encodes 0x02000000#32 0xFFFEFF00#32 (fun w => .bufPush (if w.getLsbD 16 then .rx else .tx) (w.extractLsb' 0 8)) ∧
  Encodes 0x03000000#32 0xFFFEFFFF#32 (fun w => .bufPop (if w.getLsbD 16 then .rx else .tx)) ∧
  Encodes 0x04000000#32 0xFFFEFFFF#32 (fun w => .bufFront (if w.getLsbD 16 then .rx else .tx)) ∧
  Encodes 0x05000000#32 0xFFFEFFFF#32 (fun w => .bufEmpty (if w.getLsbD 16 then .rx else .tx)) ∧
  Encodes 0x06000000#32 0xFFFEFFFF#32 (fun w => .bufFull (if w.getLsbD 16 then .rx else .tx)) ∧
  Encodes 0x07000000#32 0xFFFEFFFF#32 (fun w => .bufSize (if w.getLsbD 16 then .rx else .tx)) ∧
  Encodes 0x08000000#32 0xFFFEFFFF#32 (fun w => .bufAvail (if w.getLsbD 16 then .rx else .tx)) ∧
  Encodes 0x09000000#32 0xFFFEFFFF#32 (fun w => .bufMaxsize (if w.getLsbD 16 then .rx else .tx)) ∧
  Encodes 0x10000000#32 0xFFFFFFFF#32 (fun _ => .ctrNow) ∧
  Encodes 0x11000000#32 0xFFFFFFFF#32 (fun _ => .ctrNs2cnt) ∧
  Encodes 0x12000000#32 0xFFFFFFFF#32 (fun _ => .ctrUs2cnt) ∧
  Encodes 0x13000000#32 0xFFFFFFFF#32 (fun _ => .ctrMs2cnt) ∧
  Encodes 0x14000000#32 0xFFFFFFFF#32 (fun _ => .ctrDiff) ∧
  Encodes 0x15000000#32 0xFFFFFFFF#32 (fun _ => .ctrTimeout) ∧
  Encodes 0x16000000#32 0xFFFFFFFF#32 (fun _ => .ctrWaitns) ∧
  Encodes 0x17000000#32 0xFFFFFFFF#32 (fun _ => .ctrWaitus) ∧
  Encodes 0x18000000#32 0xFFFFFFFF#32 (fun _ => .ctrWaitms) ∧
  Encodes 0x19000000#32 0xFFFFFFFF#32 (fun _ => .ctrMeasns) ∧
  Encodes 0x1A000000#32 0xFFFFFFFF#32 (fun _ => .ctrMeasus) ∧
  Encodes 0x1B000000#32 0xFFFFFFFF#32 (fun _ => .ctrMeasms) ∧
  Encodes 0x20000000#32 0xFFFFFC00#32 (fun w => .uartSetup (lineFields w)) ∧
  Encodes 0x21000000#32 0xFFFFFFFF#32 (fun _ => .uartGet) ∧
  Encodes 0x22000000#32 0xFFFFFF00#32 (fun w => .uartPut (w.extractLsb' 0 8)) ∧
  Encodes 0x23000000#32 0xFFFF0000#32 (fun w => .uartRead (w.extractLsb' 0 16).toNat) ∧
  Encodes 0x24000000#32 0xFFFF0000#32 (fun w => .uartWrite (w.extractLsb' 0 16).toNat) ∧
  Encodes 0x25000000#32 0xFFFFFFFF#32 (fun _ => .uartClear) ∧
  Encodes 0x26000000#32 0xFFFFFFFF#32 (fun _ => .uartFlush) ∧
  Encodes 0x27000000#32 0xFFFFFFFF#32 (fun _ => .uartFrameperiod) ∧
  Encodes 0x28000000#32 0xFFFFFFFF#32 (fun _ => .uartOverrun) ∧
  Encodes 0x29000000#32 0xFFFFFFFF#32 (fun _ => .uartFraming) ∧
  Encodes 0x2A000000#32 0xFFFFFFFF#32 (fun _ => .uartParity) ∧
  Encodes 0x30000000#32 0xFFFFFC00#32 (fun w => .uartCreate (lineFields w)) ∧
  Encodes 0x31000000#32 0xFFFFFFFF#32 (fun _ => .uartDestroy) ∧
  Encodes 0x32000000#32 0xFFFFFFFF#32 (fun _ => .uartService) ∧
  ∀ w : Word,
    decode w = .error .unassignedOpcode ↔
      (opcodeOf w).toNat = 0x00 ∨ (0x0A ≤ (opcodeOf w).toNat ∧ (opcodeOf w).toNat ≤ 0x0F) ∨
      (0x1C ≤ (opcodeOf w).toNat ∧ (opcodeOf w).toNat ≤ 0x1F) ∨
      (0x2B ≤ (opcodeOf w).toNat ∧ (opcodeOf w).toNat ≤ 0x2F) ∨ 0x33 ≤ (opcodeOf w).toNat

/-- R106: every worked encoding, as the word the encoder writes and the command the decoder reads; and the illegal words. -/
def Obligations.WorkedEncodingsDecode : Prop :=
  (∀ p ∈
    [(0x02000041#32, Instr.bufPush .tx 0x41#8), (0x02010041#32, .bufPush .rx 0x41#8), (0x03010000#32, .bufPop .rx),
      (0x01000000#32, .bufClear .tx), (0x12000000#32, .ctrUs2cnt), (0x20000008#32, .uartSetup ⟨8#4, .none, .one, .none⟩),
      (0x20000058#32, .uartSetup ⟨8#4, .even, .two, .none⟩), (0x20000108#32, .uartSetup ⟨8#4, .none, .one, .hw⟩),
      (0x22000048#32, .uartPut 0x48#8), (0x24000003#32, .uartWrite 3), (0x23000002#32, .uartRead 2),
      (0x21000000#32, .uartGet), (0x26000000#32, .uartFlush), (0x32000000#32, .uartService)],
    decode p.1 = .ok p.2 ∧ encode p.2 = p.1) ∧
  decode 0x00000000#32 = .error .unassignedOpcode ∧
  decode 0x02000141#32 = .error .reservedBitSet ∧
  decode 0x21000001#32 = .error .reservedBitSet ∧
  decode 0x20000408#32 = .error .reservedBitSet

/-- Decoding the command word of a well-formed instruction gives the instruction back, with every operand at every value. -/
def Obligations.DecodeOfEncode : Prop :=
  ∀ i : Instr, i.wf = true → decode (encode i) = .ok i

/-- R101: a word that decodes is the command word of the instruction it decodes to, so no two words are one command; and
the instruction is well-formed. -/
def Obligations.DecodedWordIsTheCommandWord : Prop :=
  ∀ (w : Word) (i : Instr), decode w = .ok i → encode i = w ∧ i.wf = true

/-! ## The step -/

/-- R36, R98: FG's turn runs the decoded command, at its first step and at every later one. -/
def Obligations.StepRunsTheDecodedCommand : Prop :=
  ∀ (s : State) (rest : List Event), s.inst.wf = true → s.sched = .fg :: rest → s.fault = 0#8 → s.isr = .inactive →
    (∀ i, s.fg = .presented → decodeCommand s.port.cmd s.port.din = .ok i →
      step s = exec i { s with sched := rest }) ∧
    (∀ i p, s.fg = .running i p → step s = exec i { s with sched := rest })

/-- R98, R99, R105: a presented command that does not decode raises F_ILLEGAL_CMD and changes nothing else; and a command does
not decode exactly when its word does not or its DIN has the wrong length. -/
def Obligations.IllegalCommandFaults : Prop :=
  (∀ (s : State) (rest : List Event) (e : DecodeError),
    s.inst.wf = true → s.sched = .fg :: rest → s.fault = 0#8 → s.isr = .inactive → s.fg = .presented →
    decodeCommand s.port.cmd s.port.din = .error e →
    step s = .next ({ s with sched := rest }.faulted 0x01#8)) ∧
  (∀ (w : Word) (i : Instr) (din : List Byte), decode w = .ok i →
    let n := match i with
      | .uartWrite n => n
      | _ => 0
    (din.length = n → decodeCommand w din = .ok i) ∧
    (din.length ≠ n → decodeCommand w din = .error .dinLength)) ∧
  (∀ (w : Word) (e : DecodeError) (din : List Byte), decode w = .error e → decodeCommand w din = .error e)

/-- R48: presenting a command, and when the HOST may not (U47 refuses that, log entry 18). -/
def Obligations.HostPresentsOneCommand : Prop :=
  ∀ (s : State) (cmd opa opb : Word) (din : List Byte) (rest : List Event),
    s.inst.wf = true → s.sched = .present cmd opa opb din :: rest →
    (s.port.busy = false → s.fault = 0#8 →
      step s = .next
        { s with
          sched := rest
          fg := .presented
          port := ⟨cmd, opa, opb, din, s.port.sts, s.port.res, s.port.dout, true⟩ }) ∧
    (s.port.busy = true ∨ s.fault ≠ 0#8 → step s = .refused .hostProtocol)

/-- R35, R252: after a fault FG and the ISR take no step (a turn given to one changes nothing, log entry 9), no interrupt is
delivered and the HOST may present nothing (log entry 18); no step of any agent clears `fault`. -/
def Obligations.FaultHaltsTheBlock : Prop :=
  ∀ (s : State) (rest : List Event), s.inst.wf = true → s.fault ≠ 0#8 →
    (s.sched = .fg :: rest → step s = .next { s with sched := rest }) ∧
    (s.sched = .isr :: rest → step s = .next { s with sched := rest }) ∧
    (∀ c a b d, s.sched = .present c a b d :: rest → step s = .refused .hostProtocol) ∧
    (∀ t, step s = .next t → t.fault = s.fault)

/-- R258, R261: delivery under exactly the seven conditions; entry changes `isr` alone. Where they do not hold the turn
changes nothing (log entry 9). -/
def Obligations.InterruptDelivery : Prop :=
  ∀ (s : State) (rest : List Event), s.inst.wf = true → s.isr = .inactive → s.sched = .isr :: rest →
    ((s.inst.irq ≠ none ∧ s.irqc.registered = true ∧ s.irqc.enabled = true ∧ irqLevel s = true ∧ s.inCS = false ∧
        s.fault = 0#8) →
      step s = .next { s with sched := rest, isr := .active .h0 }) ∧
    (¬ (s.inst.irq ≠ none ∧ s.irqc.registered = true ∧ s.irqc.enabled = true ∧ irqLevel s = true ∧ s.inCS = false ∧
        s.fault = 0#8) →
      step s = .next { s with sched := rest })

/-- R72(a), R215, R262: while the ISR is active FG takes no step (a turn given to it changes nothing, log entry 9). A turn of the
active ISR is one step of SERVICE from the point `isr` holds, and at the end of SERVICE `isr` goes back to INACTIVE. Under the
invariant, a turn of the active ISR writes no port register, no `irqc`, no `fg`, no counter and no line configuration; FG is
where it was, whether or not `isr` becomes INACTIVE. -/
def Obligations.IsrTurnsLeaveForegroundAlone : Prop :=
  (∀ (s : State) (rest : List Event), s.inst.wf = true → s.isr ≠ .inactive → s.sched = .fg :: rest →
    step s = .next { s with sched := rest }) ∧
  (∀ (s : State) (p : SvcPoint) (rest : List Event), s.inst.wf = true → s.fault = 0#8 → s.isr = .active p →
    s.sched = .isr :: rest →
    (∀ t q, serviceStep p { s with sched := rest } = .pause t q → step s = .next { t with isr := .active q }) ∧
    (∀ t, serviceStep p { s with sched := rest } = .done t → step s = .next { t with isr := .inactive })) ∧
  ∀ (s t : State) (rest : List Event), Inv s → s.isr ≠ .inactive → s.sched = .isr :: rest → step s = .next t →
    t.port = s.port ∧ t.fg = s.fg ∧ t.irqc = s.irqc ∧ t.ctr = s.ctr ∧ t.lcfg = s.lcfg ∧ t.fp = s.fp ∧ t.lc = s.lc ∧
    t.fault = s.fault ∧ t.inCS = s.inCS ∧ t.saved = s.saved ∧ t.inst = s.inst ∧ t.draws = s.draws ∧
    t.dev.cfg = s.dev.cfg ∧ t.dev.lineIn = s.dev.lineIn ∧ t.dev.lineOut = s.dev.lineOut ∧
    t.dev.shifter = s.dev.shifter

/-- R240 to R242: the DEV agent's events. An event that is not enabled changes nothing (log entry 9). -/
def Obligations.DeviceEvents : Prop :=
  ∀ (s : State) (rest : List Event), s.inst.wf = true →
    (∀ v p f, s.sched = .rxArrive v p f :: rest →
      (s.dev.rxq.length = s.inst.hwRxDepth →
        step s = .next
          { s with
            sched := rest
            dev := { s.dev with lineIn := s.dev.lineIn ++ [⟨v, p, f⟩], roe := true } }) ∧
      (s.dev.rxq.length ≠ s.inst.hwRxDepth →
        step s = .next
          { s with
            sched := rest
            dev :=
              { s.dev with
                lineIn := s.dev.lineIn ++ [⟨v, p, f⟩]
                rxq := s.dev.rxq ++ [v]
                pe := s.dev.pe || p
                fe := s.dev.fe || f } })) ∧
    (s.sched = .txLoad :: rest →
      (∀ v q, s.dev.shifter = none → s.dev.txq = v :: q →
        step s = .next { s with sched := rest, dev := { s.dev with shifter := some v, txq := q } }) ∧
      (s.dev.shifter ≠ none ∨ s.dev.txq = [] → step s = .next { s with sched := rest })) ∧
    (s.sched = .txDone :: rest →
      (∀ v, s.dev.shifter = some v →
        step s = .next
          { s with sched := rest, dev := { s.dev with lineOut := s.dev.lineOut ++ [v], shifter := none } }) ∧
      (s.dev.shifter = none → step s = .next { s with sched := rest }))

/-- R141: one tick of the counter, which takes no step before initialization (a turn given to it changes nothing, log entry
9). -/
def Obligations.CounterTicks : Prop :=
  ∀ (s : State) (rest : List Event), s.inst.wf = true → s.sched = .tick :: rest →
    (s.ctr.init = true → s.inst.ctrDir = .up →
      step s = .next { s with sched := rest, ctr := ⟨true, s.ctr.cnt + 1#32⟩ }) ∧
    (s.ctr.init = true → s.inst.ctrDir = .down →
      step s = .next { s with sched := rest, ctr := ⟨true, s.ctr.cnt - 1#32⟩ }) ∧
    (s.ctr.init = false → step s = .next { s with sched := rest })

/-- R243: the interrupt request level, with the status flags of R231. -/
def Obligations.InterruptRequestLevel : Prop :=
  ∀ s : State,
    irqLevel s = true ↔
      (s.dev.ctrl.rxe = true ∧ s.dev.rxq ≠ []) ∨
      (s.dev.ctrl.txe = true ∧ s.dev.txq.length < s.inst.hwTxDepth) ∨
      (s.dev.ctrl.erre = true ∧ (s.dev.pe = true ∨ s.dev.fe = true ∨ s.dev.roe = true))

/-! ## Power-on and the invariant -/

/-- R280: the values the power-on table gives, for every instance. -/
def Obligations.PowerOnState : Prop :=
  ∀ p : Params,
    let s := State.powerOn p
    s.inst = p ∧ s.cap .tx = p.txCap ∧ s.cap .rx = p.rxCap ∧ s.tx.init = false ∧ s.rx.init = false ∧
    s.ctr.init = false ∧ s.ier = ⟨false, false, false⟩ ∧ s.irqc = ⟨false, false⟩ ∧ s.lc = .unconstructed ∧
    s.fault = 0x00#8 ∧ s.fg = .idle ∧ s.isr = .inactive ∧ s.inCS = false ∧ s.port.busy = false ∧
    s.dev = ⟨[], [], none, false, false, false, ⟨false, false, false⟩, none, [], []⟩

/-- The invariant holds at power-on of every admitted instance, `State.reset` among them. That STS holds a code of R251 there is
the model's choice (log entry 6: R280 and U24 leave it open), and so is the instance of `State.reset` (log entries 2 and 3);
the storage of both buffers is log entry 5. -/
def Obligations.PowerOnMeetsInv : Prop :=
  (∀ p : Params, p.wf = true → Inv (State.powerOn p)) ∧ Inv State.reset

/-- Every step of every agent keeps the invariant. What Inv says of `irqc` on a READY transport and of `saved` inside SetupCore
rests on log entry 22 (DEDUCED: R174 also for a SETUP after a failed CREATE), and the points of a command on
log entry 8. -/
def Obligations.StepKeepsInv : Prop :=
  ∀ s t : State, Inv s → step s = .next t → Inv t

/-- R218 and the model's own stops: under the invariant no step stops, but for a HOST that breaks R48. -/
def Obligations.StepNeverStops : Prop :=
  ∀ s : State, Inv s →
    (∃ t, step s = .next t) ∨
    (step s = .refused .hostProtocol ∧ (∃ c a b d, (nextTurn s).1 = .present c a b d) ∧
      (s.port.busy = true ∨ s.fault ≠ 0#8))

/-- R218, R253: a step of SERVICE, as the ISR or as the command, raises no fault, and F_DEV_PROTOCOL is "unreachable from
this spec's rules": no step of any agent raises it. -/
def Obligations.ServiceNeverFaults : Prop :=
  (∀ s t : State, Inv s → step s = .next t → t.fault = 0x0B#8 → s.fault = 0x0B#8) ∧
  (∀ s t : State, Inv s → (nextTurn s).1 = .isr → step s = .next t → t.fault = s.fault) ∧
  (∀ (s t : State) (p : SvcPoint), Inv s → s.fg = .running .uartService (.svc p) →
    exec .uartService s = .next t → t.fault = s.fault) ∧
  (∀ s t : State, Inv s → s.lc = .ready → AtStart s → exec .uartService s = .next t → t.fault = s.fault)

/-- R20, R21: no step changes the instance; its parameters are "fixed for the life of the instance". -/
def Obligations.InstanceIsFixed : Prop :=
  ∀ s t : State, step s = .next t → t.inst = s.inst

/-! ## BoundedByteBuffer -/

/-- R125, R126: BUF.CLEAR. -/
def Obligations.BufClearEmpties : Prop :=
  ∀ (b : BufId) (s : State),
    (s.lc = .destroyed → exec (.bufClear b) s = .next (s.faulted 0x04#8)) ∧
    (s.lc ≠ .destroyed →
      exec (.bufClear b) s =
        .next ((s.sectionDone.setBuf b ⟨(s.buf b).store, 0, 0, 0, true⟩).answered 0x00#8 0#32 []))

/-- R122, R127: BUF.PUSH. The stored slot is `tail`; every other slot reads as before. -/
def Obligations.BufPushAppends : Prop :=
  ∀ (b : BufId) (v : Byte) (s : State),
    (s.lc = .destroyed → exec (.bufPush b v) s = .next (s.faulted 0x04#8)) ∧
    (s.lc ≠ .destroyed → (s.buf b).init = false → exec (.bufPush b v) s = .next (s.faulted 0x05#8)) ∧
    (s.lc ≠ .destroyed → (s.buf b).init = true → (s.buf b).count = s.cap b →
      exec (.bufPush b v) s = .next (s.sectionOpen.faulted 0x06#8)) ∧
    (s.lc ≠ .destroyed → (s.buf b).init = true → (s.buf b).count ≠ s.cap b → (s.buf b).tail < s.cap b →
      ∃ m : Memory,
        (∀ i, m.read i = if i = (s.buf b).tail then v else (s.buf b).store.read i) ∧
        exec (.bufPush b v) s =
          .next
            ((s.sectionDone.setBuf b
                ⟨m, (s.buf b).head, if (s.buf b).tail + 1 = s.cap b then 0 else (s.buf b).tail + 1,
                  (s.buf b).count + 1, true⟩).answered 0x00#8 0#32 []))

/-- R123, R128: BUF.POP. The slot it leaves is not erased. -/
def Obligations.BufPopDropsTheOldest : Prop :=
  ∀ (b : BufId) (s : State),
    (s.lc = .destroyed → exec (.bufPop b) s = .next (s.faulted 0x04#8)) ∧
    (s.lc ≠ .destroyed → (s.buf b).init = false → exec (.bufPop b) s = .next (s.faulted 0x05#8)) ∧
    (s.lc ≠ .destroyed → (s.buf b).init = true → (s.buf b).count = 0 →
      exec (.bufPop b) s = .next (s.sectionOpen.faulted 0x07#8)) ∧
    (s.lc ≠ .destroyed → (s.buf b).init = true → (s.buf b).count ≠ 0 →
      exec (.bufPop b) s =
        .next
          ((s.sectionDone.setBuf b
              ⟨(s.buf b).store, if (s.buf b).head + 1 = s.cap b then 0 else (s.buf b).head + 1, (s.buf b).tail,
                (s.buf b).count - 1, true⟩).answered 0x00#8 0#32 []))

/-- R124, R129: BUF.FRONT reads the slot at `head` and changes no buffer. -/
def Obligations.BufFrontReadsTheOldest : Prop :=
  ∀ (b : BufId) (s : State),
    (s.lc = .destroyed → exec (.bufFront b) s = .next (s.faulted 0x04#8)) ∧
    (s.lc ≠ .destroyed → (s.buf b).init = false → exec (.bufFront b) s = .next (s.faulted 0x05#8)) ∧
    (s.lc ≠ .destroyed → (s.buf b).init = true → (s.buf b).count = 0 →
      exec (.bufFront b) s = .next (s.sectionOpen.faulted 0x08#8)) ∧
    (s.lc ≠ .destroyed → (s.buf b).init = true → (s.buf b).count ≠ 0 → (s.buf b).head < s.cap b →
      exec (.bufFront b) s =
        .next (s.sectionDone.answered 0x00#8 (BitVec.ofNat 32 ((s.buf b).store.read (s.buf b).head).toNat) []))

/-- R130 to R134: the five buffer queries change no buffer. -/
def Obligations.BufQueriesAnswer : Prop :=
  ∀ (b : BufId) (s : State),
    (s.lc = .destroyed →
      ∀ i ∈ [Instr.bufEmpty b, .bufFull b, .bufSize b, .bufAvail b, .bufMaxsize b],
        exec i s = .next (s.faulted 0x04#8)) ∧
    (s.lc ≠ .destroyed → (s.buf b).init = false →
      ∀ i ∈ [Instr.bufEmpty b, .bufFull b, .bufSize b, .bufAvail b, .bufMaxsize b],
        exec i s = .next (s.faulted 0x05#8)) ∧
    (s.lc ≠ .destroyed → (s.buf b).init = true →
      exec (.bufEmpty b) s =
        .next (s.sectionDone.answered 0x00#8 (if (s.buf b).count = 0 then 1#32 else 0#32) []) ∧
      exec (.bufFull b) s =
        .next (s.sectionDone.answered 0x00#8 (if (s.buf b).count = s.cap b then 1#32 else 0#32) []) ∧
      exec (.bufSize b) s = .next (s.sectionDone.answered 0x00#8 (BitVec.ofNat 32 (s.buf b).count) []) ∧
      exec (.bufAvail b) s =
        .next (s.sectionDone.answered 0x00#8 (BitVec.ofNat 32 (s.cap b - (s.buf b).count)) []) ∧
      exec (.bufMaxsize b) s = .next (s.sectionDone.answered 0x00#8 (BitVec.ofNat 32 (s.cap b)) []))

/-- R135: every primitive that completes keeps the invariants of R22. -/
def Obligations.BufferPrimitivesKeepInvariants : Prop :=
  ∀ (cap : Nat) (b c : Buffer) (v : Byte),
    (1 ≤ cap → (bufClear b).Live cap) ∧
    (b.Live cap → bufPush cap b v = .ok c → c.Live cap) ∧
    (b.Live cap → bufPop cap b = .ok c → c.Live cap)

/-- R136: the FIFO law. After any sequence of pushes and pops from a cleared buffer in which none faults, the count is pushes
minus pops, and the bytes held are the bytes pushed, in order, without as many of the first as were popped. Front reads the
first byte held and pop removes it, so repeated front and pop yield exactly these bytes. -/
def Obligations.FifoLaw : Prop :=
  (∀ (cap : Nat) (b c : Buffer) (ops : List (Option Byte)), 1 ≤ cap → runBuffer cap ops (bufClear b) = .ok c →
    c.Live cap ∧
    c.count + (ops.filter Option.isNone).length = (ops.filter Option.isSome).length ∧
    c.contents cap = (ops.filterMap id).drop (ops.filter Option.isNone).length) ∧
  (∀ (cap : Nat) (c : Buffer), c.Live cap → c.count ≠ 0 →
    ∃ v d, bufFront cap c = .ok v ∧ bufPop cap c = .ok d ∧ d.count + 1 = c.count ∧
      c.contents cap = v :: d.contents cap)

/-! ## MonotonicCounter -/

/-- R144, R149: CTR.NOW. At the first use the result is the free value of `draw()` (log entry 11). -/
def Obligations.CtrNowReadsTheCounter : Prop :=
  ∀ s : State, exec .ctrNow s = .next (s.counterOn.answered 0x00#8 s.counterOn.ctr.cnt [])

/-- R145, R146, R150 to R152: the conversions. They do not initialize the counter. -/
def Obligations.CtrConversions : Prop :=
  ∀ i ∈ [Instr.ctrNs2cnt, .ctrUs2cnt, .ctrMs2cnt], ∀ s : State,
    (durationProduct i s.inst.ctrHz s.port.opa.toNat > 2 ^ 32 - 1 → exec i s = .next (s.faulted 0x09#8)) ∧
    (durationProduct i s.inst.ctrHz s.port.opa.toNat ≤ 2 ^ 32 - 1 →
      exec i s =
        .next (s.answered 0x00#8 (BitVec.ofNat 32 (durationCounts i s.inst.ctrHz s.port.opa.toNat)) []))

/-- R146: "For every x that does not fault, Conv(x) ≥ x × CTR_HZ / 10^k, exactly": of the conversions every meaning uses, and of
the RES the conversion commands answer. -/
def Obligations.ConversionsNeverUndershoot : Prop :=
  (∀ (hz : Nat) (x c : Word),
    (convNs hz x = .ok c → c.toNat * 10 ^ 9 ≥ x.toNat * hz) ∧
    (convUs hz x = .ok c → c.toNat * 10 ^ 6 ≥ x.toNat * hz) ∧
    (convMs hz x = .ok c → c.toNat * 10 ^ 3 ≥ x.toNat * hz)) ∧
  ∀ s t : State,
    (exec .ctrNs2cnt s = .next t → t.port.sts = 0x00#8 →
      t.port.res.toNat * 10 ^ 9 ≥ s.port.opa.toNat * s.inst.ctrHz) ∧
    (exec .ctrUs2cnt s = .next t → t.port.sts = 0x00#8 →
      t.port.res.toNat * 10 ^ 6 ≥ s.port.opa.toNat * s.inst.ctrHz) ∧
    (exec .ctrMs2cnt s = .next t → t.port.sts = 0x00#8 →
      t.port.res.toNat * 10 ^ 3 ≥ s.port.opa.toNat * s.inst.ctrHz)

/-- R143, R153: CTR.DIFF, modulo 2^32. -/
def Obligations.CtrDiffSubtracts : Prop :=
  ∀ s : State,
    (s.inst.ctrDir = .up → exec .ctrDiff s = .next (s.answered 0x00#8 (s.port.opb - s.port.opa) [])) ∧
    (s.inst.ctrDir = .down → exec .ctrDiff s = .next (s.answered 0x00#8 (s.port.opa - s.port.opb) []))

/-- R154: CTR.TIMEOUT, an unsigned comparison. -/
def Obligations.CtrTimeoutCompares : Prop :=
  ∀ s : State,
    exec .ctrTimeout s =
      .next
        (s.counterOn.answered 0x00#8
          (if s.port.opb.toNat ≤ (s.elapsed s.port.opa).toNat then 1#32 else 0#32) [])

/-- R147, R159 to R161: the measurements. -/
def Obligations.CtrMeasurements : Prop :=
  ∀ p ∈ [(Instr.ctrMeasns, 1000000000), (.ctrMeasus, 1000000), (.ctrMeasms, 1000)], ∀ s : State,
    let d := match s.inst.ctrDir with
      | .up => (s.port.opb - s.port.opa).toNat
      | .down => (s.port.opa - s.port.opb).toNat
    let r := (d * p.2 + s.inst.ctrHz - 1) / s.inst.ctrHz
    (r > 2 ^ 32 - 1 → exec p.1 s = .next (s.faulted 0x0A#8)) ∧
    (r ≤ 2 ^ 32 - 1 → exec p.1 s = .next (s.answered 0x00#8 (BitVec.ofNat 32 r) []))

/-- R155 to R158: the waits, step by step (log entry 8): the conversion and the base sample, then one sample a step, until
due. -/
def Obligations.CtrWaits : Prop :=
  ∀ i ∈ [Instr.ctrWaitns, .ctrWaitus, .ctrWaitms], ∀ s : State,
    (AtStart s → durationProduct i s.inst.ctrHz s.port.opa.toNat > 2 ^ 32 - 1 →
      exec i s = .next (s.counterOn.faulted 0x09#8)) ∧
    (AtStart s → durationProduct i s.inst.ctrHz s.port.opa.toNat ≤ 2 ^ 32 - 1 →
      exec i s =
        .next
          { s.counterOn with
            fg :=
              .running i
                (.waitSample (BitVec.ofNat 32 (durationCounts i s.inst.ctrHz s.port.opa.toNat))
                  s.counterOn.ctr.cnt) }) ∧
    (∀ t base, s.fg = .running i (.waitSample t base) → t.toNat ≤ (s.elapsed base).toNat →
      exec i s = .next (s.counterOn.answered 0x00#8 0#32 [])) ∧
    (∀ t base, s.fg = .running i (.waitSample t base) → (s.elapsed base).toNat < t.toNat →
      exec i s = .next s.counterOn)

/-- R162: the difference is the true elapsed count, whether or not the counter wrapped. -/
def Obligations.DiffIsWrapInsensitive : Prop :=
  ∀ (start : Word) (e : Nat), e < 2 ^ 32 →
    (diff .up start ((ctrNext .up)^[e] start)).toNat = e ∧
    (diff .down start ((ctrNext .down)^[e] start)).toNat = e

/-- R163: TIMEOUT is 0 at its base and 1 once the counter has advanced by at least t counts and fewer than 2^32. -/
def Obligations.TimeoutTurnsTrueWhenDue : Prop :=
  ∀ (s : State) (e : Nat), s.ctr = ⟨true, (ctrNext s.inst.ctrDir)^[e] s.port.opa⟩ → e < 2 ^ 32 →
    (e < s.port.opb.toNat → exec .ctrTimeout s = .next (s.answered 0x00#8 0#32 [])) ∧
    (s.port.opb.toNat ≤ e → exec .ctrTimeout s = .next (s.answered 0x00#8 1#32 []))

/-! ## SerialTransport: lifecycle -/

/-- R170: the lifecycle admission table, every UART.* command in every lifecycle state: a fault entry raises that fault and
writes no other state. -/
def Obligations.LifecycleAdmission : Prop :=
  ∀ (i : Instr) (s : State) (code : BitVec 8), AtStart s → lifecycleFault i s.lc = some code →
    exec i s = .next (s.faulted code)

/-- R171, R173: `Valid(cfg, flow)`. -/
def Obligations.ValidationIsTheAllowList : Prop :=
  ∀ (p : Params) (bitrate : Word) (lc : LineReq) (cfg : LineConfig),
    validate p bitrate lc = some cfg ↔
      lc.flow = .none ∧ bitrate.toNat ≥ 1 ∧ cfg.bitrate = bitrate ∧ cfg.dbits = lc.dbits ∧
      ((lc.par = .none ∧ cfg.par = .none) ∨ (lc.par = .even ∧ cfg.par = .even) ∨ (lc.par = .odd ∧ cfg.par = .odd)) ∧
      ((lc.stop = .one ∧ cfg.stop = .one) ∨ (lc.stop = .two ∧ cfg.stop = .two)) ∧
      (p.platform = .nios → cfg ∈ p.allowNios) ∧ (p.platform = .microblaze → cfg ∈ p.allowMicroblaze)

/-- R172: the frame period is the exact frame time in microseconds, rounded up, and at most 19 000 000. -/
def Obligations.FramePeriodRoundsUp : Prop :=
  ∀ cfg : LineConfig, 1 ≤ cfg.bitrate.toNat →
    let bits := 1 + cfg.dbits.toNat + (if cfg.par = .none then 0 else 1) + (if cfg.stop = .one then 1 else 2)
    (framePeriod cfg).toNat = (bits * 1000000 + cfg.bitrate.toNat - 1) / cfg.bitrate.toNat ∧
    (framePeriod cfg).toNat * cfg.bitrate.toNat ≥ bits * 1000000 ∧
    (framePeriod cfg).toNat * cfg.bitrate.toNat < bits * 1000000 + cfg.bitrate.toNat ∧
    (framePeriod cfg).toNat ≤ 19000000

/-- R173, R175, R176: a rejected configuration writes `lc` alone and ends with ERR_CONFIG. -/
def Obligations.RejectedConfigurationWritesNothing : Prop :=
  ∀ (lc : LineReq) (s : State), AtStart s → validate s.inst s.port.opa lc = none →
    (s.lc = .unconstructed →
      exec (.uartCreate lc) s = .next ({ s with lc := .setupFailed }.answered 0x01#8 0#32 [])) ∧
    (s.lc = .ready ∨ s.lc = .setupFailed →
      exec (.uartSetup lc) s = .next ({ s with lc := .setupFailed }.answered 0x01#8 0#32 []))

/-- R174 to R176: an accepted configuration, in SetupCore's three steps (log entry 8), each from every state at its point, since
DEV and CTR may step in between (R71). DIVISOR is the instance's parameter (log entry 10). That a SETUP after a failed CREATE sets
`irqc` to (1, 1), and that `saved` is left alone, is log entry 22 (DEDUCED: R174 for every SETUP, R283 for a constructed one). -/
def Obligations.AcceptedConfigurationSetsUp : Prop :=
  ∀ (i : Instr) (lc : LineReq) (cfg : LineConfig) (s : State), i = .uartCreate lc ∨ i = .uartSetup lc →
    ((i = .uartCreate lc ∧ s.lc = .unconstructed) ∨ (i = .uartSetup lc ∧ (s.lc = .ready ∨ s.lc = .setupFailed)) →
      AtStart s → validate s.inst s.port.opa lc = some cfg →
      exec i s =
        .next
          { s with
            inCS := true
            irqc := if s.inst.irq = none then s.irqc else ⟨s.irqc.registered, false⟩
            dev := { s.dev with cfg := some (cfg, divisor s.inst cfg.bitrate) }
            fg := .running i (.setupCtrl cfg) }) ∧
    (s.fg = .running i (.setupCtrl cfg) →
      exec i s =
        .next
          { s with
            tx := ⟨s.tx.store, 0, 0, 0, true⟩
            rx := ⟨s.rx.store, 0, 0, 0, true⟩
            sticky := ⟨false, false, false⟩
            lcfg := cfg
            fp := framePeriod cfg
            irqc := if s.inst.irq = none then s.irqc else ⟨true, s.irqc.enabled⟩
            ier := ⟨true, false, true⟩
            dev := { s.dev with ctrl := ⟨true, false, true⟩ }
            fg := .running i .setupEnd }) ∧
    (s.fg = .running i .setupEnd →
      exec i s =
        .next
          ({ s with
              irqc := if s.inst.irq = none then s.irqc else ⟨s.irqc.registered, true⟩
              inCS := false
              lc := .ready }.answered 0x00#8 0#32 []))

/-- R191, R239: UART.DESTROY, in its two steps (log entry 8). -/
def Obligations.DestroyDisablesTheDevice : Prop :=
  ∀ s : State,
    (AtStart s → s.lc = .ready ∨ s.lc = .setupFailed →
      exec .uartDestroy s =
        .next
          { s with
            inCS := true
            irqc := if s.inst.irq = none then s.irqc else ⟨false, false⟩
            ier := ⟨false, false, false⟩
            dev := { s.dev with ctrl := ⟨false, false, false⟩, pe := false, fe := false, roe := false }
            fg := .running .uartDestroy .destroyEnd }) ∧
    (s.fg = .running .uartDestroy .destroyEnd →
      exec .uartDestroy s = .next ({ s with inCS := false, lc := .destroyed }.answered 0x00#8 0#32 []))

/-! ## SerialTransport: transfers -/

/-- R177: UART.GET. -/
def Obligations.GetTakesTheOldestByte : Prop :=
  ∀ s : State, s.lc = .ready →
    (s.rx.count = 0 → exec .uartGet s = .next (s.sectionDone.answered 0x02#8 0#32 [])) ∧
    (s.rx.count ≠ 0 → s.rx.head < s.inst.rxCap →
      exec .uartGet s =
        .next
          ({ s.sectionDone with
              rx :=
                { s.rx with
                  head := if s.rx.head + 1 = s.inst.rxCap then 0 else s.rx.head + 1
                  count := s.rx.count - 1 } }.answered
            0x00#8 (BitVec.ofNat 32 (s.rx.store.read s.rx.head).toNat) []))

/-- R180: UART.READ, all or nothing, in arrival order. -/
def Obligations.ReadIsAllOrNothing : Prop :=
  ∀ (n : Nat) (s : State), s.lc = .ready →
    (s.rx.count < n → exec (.uartRead n) s = .next (s.sectionDone.answered 0x02#8 0#32 [])) ∧
    (n ≤ s.rx.count → s.rx.Live s.inst.rxCap →
      exec (.uartRead n) s =
        .next
          ({ s.sectionDone with
              rx := { s.rx with head := (s.rx.head + n) % s.inst.rxCap, count := s.rx.count - n } }.answered
            0x00#8 0#32 ((s.rx.contents s.inst.rxCap).take n)))

/-- R178, R179: UART.PUT, step by step (log entry 8): the status read, then the fast path, the rotation, the queue or
ERR_FULL, then TXE. -/
def Obligations.PutSteps : Prop :=
  ∀ (v : Byte) (s : State),
    (AtStart s → s.lc = .ready →
      exec (.uartPut v) s =
        .next { s.sectionOpen with fg := .running (.uartPut v) (.putGot (statusFlags s.inst.hwTxDepth s.dev)) }) ∧
    (∀ f, s.fg = .running (.uartPut v) (.putGot f) → TrdyHolds f s → f.trdy = true → s.tx.count = 0 →
      exec (.uartPut v) s =
        .next { s with dev := { s.dev with txq := s.dev.txq ++ [v] }, fg := .running (.uartPut v) .putCtrl }) ∧
    (∀ f, s.fg = .running (.uartPut v) (.putGot f) → TrdyHolds f s → f.trdy = true → s.tx.count ≠ 0 →
      s.tx.Live s.inst.txCap →
      ∃ (w : Byte) (tx' : Buffer),
        exec (.uartPut v) s =
          .next
            { s with
              tx := tx'
              dev := { s.dev with txq := s.dev.txq ++ [w] }
              fg := .running (.uartPut v) .putCtrl } ∧
        s.tx.contents s.inst.txCap ++ [v] = w :: tx'.contents s.inst.txCap ∧ tx'.count = s.tx.count ∧
        tx'.Live s.inst.txCap ∧ tx'.init = s.tx.init) ∧
    (∀ f, s.fg = .running (.uartPut v) (.putGot f) → f.trdy = false → s.tx.count < s.inst.txCap →
      s.tx.Live s.inst.txCap →
      ∃ tx' : Buffer,
        exec (.uartPut v) s =
          .next
            { { s with tx := tx' }.withEnables ⟨s.ier.rxe, true, s.ier.erre⟩ with fg := .running (.uartPut v) .putEnd } ∧
        tx'.contents s.inst.txCap = s.tx.contents s.inst.txCap ++ [v] ∧ tx'.count = s.tx.count + 1 ∧
        tx'.Live s.inst.txCap ∧ tx'.init = s.tx.init) ∧
    (∀ f, s.fg = .running (.uartPut v) (.putGot f) → f.trdy = false → s.tx.count = s.inst.txCap →
      exec (.uartPut v) s = .next (s.sectionClosed.answered 0x03#8 0#32 [])) ∧
    (s.fg = .running (.uartPut v) .putCtrl →
      exec (.uartPut v) s =
        .next { s.withEnables ⟨s.ier.rxe, true, s.ier.erre⟩ with fg := .running (.uartPut v) .putEnd }) ∧
    (s.fg = .running (.uartPut v) .putEnd →
      exec (.uartPut v) s = .next (s.sectionClosed.answered 0x00#8 0#32 []))

/-- R178, R181: UART.WRITE, step by step (log entry 8): the capacity check, n = 0, and for each byte the status read and then the
fast path, the rotation or the queue; after the last byte TXE, and then the end. A byte that is queued makes no access, so the
next byte's status read, or TXE, joins its step. -/
def Obligations.WriteChecksCapacityFirst : Prop :=
  ∀ (n : Nat) (s : State),
    (AtStart s → s.lc = .ready → s.inst.txCap < s.tx.count + n →
      exec (.uartWrite n) s = .next (s.sectionDone.answered 0x03#8 0#32 [])) ∧
    (AtStart s → s.lc = .ready → s.tx.count + n ≤ s.inst.txCap → n = 0 →
      exec (.uartWrite n) s = .next (s.sectionDone.answered 0x00#8 0#32 [])) ∧
    (∀ v vs, AtStart s → s.lc = .ready → s.tx.count + n ≤ s.inst.txCap → s.port.din = v :: vs → n = vs.length + 1 →
      exec (.uartWrite n) s =
        .next
          { s.sectionOpen with
            fg := .running (.uartWrite n) (.writeGot (v :: vs) (statusFlags s.inst.hwTxDepth s.dev)) }) ∧
    (∀ v vs f, s.fg = .running (.uartWrite n) (.writeGot (v :: vs) f) → TrdyHolds f s → f.trdy = true →
      s.tx.count = 0 →
      exec (.uartWrite n) s =
        .next { s with dev := { s.dev with txq := s.dev.txq ++ [v] }, fg := .running (.uartWrite n) (.writeNext vs) }) ∧
    (∀ v vs f, s.fg = .running (.uartWrite n) (.writeGot (v :: vs) f) → TrdyHolds f s → f.trdy = true →
      s.tx.count ≠ 0 → s.tx.Live s.inst.txCap →
      ∃ (w : Byte) (tx' : Buffer),
        exec (.uartWrite n) s =
          .next
            { s with
              tx := tx'
              dev := { s.dev with txq := s.dev.txq ++ [w] }
              fg := .running (.uartWrite n) (.writeNext vs) } ∧
        s.tx.contents s.inst.txCap ++ [v] = w :: tx'.contents s.inst.txCap ∧ tx'.count = s.tx.count ∧
        tx'.Live s.inst.txCap ∧ tx'.init = s.tx.init) ∧
    (∀ v vs f, s.fg = .running (.uartWrite n) (.writeGot (v :: vs) f) → f.trdy = false → s.tx.count < s.inst.txCap →
      s.tx.Live s.inst.txCap →
      ∃ tx' : Buffer,
        exec (.uartWrite n) s =
          .next
            (match vs with
              | [] =>
                { { s with tx := tx' }.withEnables ⟨s.ier.rxe, true, s.ier.erre⟩ with
                  fg := .running (.uartWrite n) .putEnd }
              | w :: ws =>
                { s with
                  tx := tx'
                  fg := .running (.uartWrite n) (.writeGot (w :: ws) (statusFlags s.inst.hwTxDepth s.dev)) }) ∧
        tx'.contents s.inst.txCap = s.tx.contents s.inst.txCap ++ [v] ∧ tx'.count = s.tx.count + 1 ∧
        tx'.Live s.inst.txCap ∧ tx'.init = s.tx.init) ∧
    (∀ v vs, s.fg = .running (.uartWrite n) (.writeNext (v :: vs)) →
      exec (.uartWrite n) s =
        .next { s with fg := .running (.uartWrite n) (.writeGot (v :: vs) (statusFlags s.inst.hwTxDepth s.dev)) }) ∧
    (s.fg = .running (.uartWrite n) (.writeNext []) →
      exec (.uartWrite n) s =
        .next { s.withEnables ⟨s.ier.rxe, true, s.ier.erre⟩ with fg := .running (.uartWrite n) .putEnd }) ∧
    (s.fg = .running (.uartWrite n) .putEnd →
      exec (.uartWrite n) s = .next (s.sectionClosed.answered 0x00#8 0#32 []))

/-- R181, R193: UART.WRITE run with no other turn in between ends with OK and TXE set, with all n bytes accepted in order
after everything accepted before. -/
def Obligations.WriteAcceptsAllBytesInOrder : Prop :=
  ∀ (n : Nat) (s : State), Inv s → s.fault = 0#8 → s.fg = .presented → s.lc = .ready → s.port.din.length = n →
    1 ≤ n → s.tx.count + n ≤ s.inst.txCap →
    ∃ (k : Nat) (t : State), k ≤ 2 * n + 2 ∧ execSteps k (.uartWrite n) s = .next t ∧ t.fg = .idle ∧
      t.port.sts = 0x00#8 ∧ t.port.res = 0#32 ∧ t.port.busy = false ∧ t.ier = ⟨s.ier.rxe, true, s.ier.erre⟩ ∧
      t.dev.ctrl = t.ier ∧ t.inCS = false ∧ t.irqc = s.irqc ∧ t.txStream = s.txStream ++ s.port.din

/-- R182: UART.CLEAR leaves `ier` alone. -/
def Obligations.ClearEmptiesBothBuffers : Prop :=
  ∀ s : State, s.lc = .ready →
    exec .uartClear s =
      .next
        ({ s.sectionDone with
            tx := ⟨s.tx.store, 0, 0, 0, true⟩
            rx := ⟨s.rx.store, 0, 0, 0, true⟩
            sticky := ⟨false, false, false⟩ }.answered 0x00#8 0#32 [])

/-- R187 to R190: the queries; they clear nothing. -/
def Obligations.TransportQueriesAnswer : Prop :=
  ∀ s : State, s.lc = .ready →
    exec .uartFrameperiod s = .next (s.answered 0x00#8 s.fp []) ∧
    exec .uartOverrun s = .next (s.sectionDone.answered 0x00#8 (if s.sticky.oe then 1#32 else 0#32) []) ∧
    exec .uartFraming s = .next (s.sectionDone.answered 0x00#8 (if s.sticky.fe then 1#32 else 0#32) []) ∧
    exec .uartParity s = .next (s.sectionDone.answered 0x00#8 (if s.sticky.pe then 1#32 else 0#32) [])

/-! ## SerialTransport: flush -/

/-- R183: FLUSH's prelude, with the first base sample of R184 (one step, log entry 8). -/
def Obligations.FlushPrelude : Prop :=
  ∀ s : State, AtStart s → s.lc = .ready →
    let fpc := s.fp.toNat * ((s.inst.ctrHz + 999999) / 1000000)
    (fpc > 2 ^ 32 - 1 ∨ (s.inst.hwTxDepth + 1) * fpc > 2 ^ 32 - 1 →
      exec .uartFlush s = .next (s.counterOn.faulted 0x09#8)) ∧
    (fpc ≤ 2 ^ 32 - 1 → (s.inst.hwTxDepth + 1) * fpc ≤ 2 ^ 32 - 1 →
      exec .uartFlush s =
        .next
          { s.counterOn with
            fg :=
              .running .uartFlush
                (.flushDrain (BitVec.ofNat 32 fpc) (BitVec.ofNat 32 ((s.inst.hwTxDepth + 1) * fpc))
                  s.counterOn.ctr.cnt) })

/-- R184: FLUSH's drain phase, step by step (log entry 8). -/
def Obligations.FlushDrainPhase : Prop :=
  ∀ (fpc bound base : Word) (s : State),
    (s.fg = .running .uartFlush (.flushBase fpc bound) →
      exec .uartFlush s =
        .next { s.counterOn with fg := .running .uartFlush (.flushDrain fpc bound s.counterOn.ctr.cnt) }) ∧
    (s.fg = .running .uartFlush (.flushDrain fpc bound base) → s.tx.count = 0 →
      exec .uartFlush s =
        .next
          { s.sectionDone.counterOn with
            fg := .running .uartFlush (.flushIdle fpc bound s.counterOn.ctr.cnt) }) ∧
    (s.fg = .running .uartFlush (.flushDrain fpc bound base) → s.tx.count ≠ 0 →
      exec .uartFlush s =
        .next
          { s.sectionOpen with
            fg := .running .uartFlush (.flushGot fpc bound base (statusFlags s.inst.hwTxDepth s.dev)) }) ∧
    (∀ f, s.fg = .running .uartFlush (.flushGot fpc bound base f) → f.trdy = true → TrdyHolds f s →
      s.tx.count ≠ 0 → s.tx.head < s.inst.txCap →
      exec .uartFlush s =
        .next
          { s.sectionClosed with
            tx :=
              { s.tx with
                head := if s.tx.head + 1 = s.inst.txCap then 0 else s.tx.head + 1
                count := s.tx.count - 1 }
            dev := { s.dev with txq := s.dev.txq ++ [s.tx.store.read s.tx.head] }
            fg := .running .uartFlush (.flushBase fpc bound) }) ∧
    (∀ f, s.fg = .running .uartFlush (.flushGot fpc bound base f) → f.trdy = false →
      exec .uartFlush s =
        .next { s.sectionClosed with fg := .running .uartFlush (.flushBound fpc bound base) }) ∧
    (s.fg = .running .uartFlush (.flushBound fpc bound base) →
      (fpc.toNat ≤ (s.elapsed base).toNat →
        exec .uartFlush s = .next (s.counterOn.answered 0x04#8 0#32 [])) ∧
      ((s.elapsed base).toNat < fpc.toNat →
        exec .uartFlush s =
          .next { s.counterOn with fg := .running .uartFlush (.flushDrain fpc bound base) }))

/-- R185, R186, R245: FLUSH's idle phase and its completion, per platform, step by step (log entry 8). -/
def Obligations.FlushIdlePhaseAndEnd : Prop :=
  ∀ (fpc bound base : Word) (s : State),
    (s.fg = .running .uartFlush (.flushIdle fpc bound base) →
      exec .uartFlush s =
        .next
          { s.sectionDone with
            fg := .running .uartFlush (.flushTest fpc bound base (statusFlags s.inst.hwTxDepth s.dev)) }) ∧
    (∀ f, s.fg = .running .uartFlush (.flushTest fpc bound base f) →
      (s.inst.platform = .nios → f.tmt = true →
        exec .uartFlush s =
          .next
            { s.sectionDone.withEnables ⟨s.ier.rxe, false, s.ier.erre⟩ with fg := .running .uartFlush .flushDone }) ∧
      (s.inst.platform = .microblaze → f.txEmpty = true →
        exec .uartFlush s =
          .next { s.counterOn with fg := .running .uartFlush (.flushWait fpc s.counterOn.ctr.cnt) }) ∧
      ((s.inst.platform = .nios ∧ f.tmt = false) ∨ (s.inst.platform = .microblaze ∧ f.txEmpty = false) →
        (bound.toNat ≤ (s.elapsed base).toNat →
          exec .uartFlush s = .next (s.counterOn.answered 0x04#8 0#32 [])) ∧
        ((s.elapsed base).toNat < bound.toNat →
          exec .uartFlush s =
            .next { s.counterOn with fg := .running .uartFlush (.flushIdle fpc bound base) }))) ∧
    (s.fg = .running .uartFlush (.flushWait fpc base) →
      (fpc.toNat ≤ (s.elapsed base).toNat →
        exec .uartFlush s = .next { s.counterOn with fg := .running .uartFlush .flushEnd }) ∧
      ((s.elapsed base).toNat < fpc.toNat → exec .uartFlush s = .next s.counterOn)) ∧
    (s.fg = .running .uartFlush .flushEnd →
      exec .uartFlush s =
        .next
          { s.sectionDone.withEnables ⟨s.ier.rxe, false, s.ier.erre⟩ with fg := .running .uartFlush .flushDone }) ∧
    (s.fg = .running .uartFlush .flushDone → exec .uartFlush s = .next (s.answered 0x00#8 0#32 []))

/-! ## The handler -/

/-- R211 to R214: SERVICE, one atomic step at a time (log entry 8), the same for the ISR and for the command. -/
def Obligations.ServiceProtocol : Prop :=
  ∀ (f : DevFlags) (k : Nat) (v : Byte) (s : State),
    serviceStep .h0 s = .pause s (.h1 (statusFlags s.inst.hwTxDepth s.dev)) ∧
    (f.pe = true ∨ f.fe = true ∨ f.roe = true →
      serviceStep (.h1 f) s =
        .pause
          { s with
            sticky := ⟨s.sticky.pe || f.pe, s.sticky.fe || f.fe, s.sticky.oe || f.roe⟩
            dev :=
              { s.dev with
                rxq := if s.inst.errClear = .resetRxFifo then [] else s.dev.rxq
                pe := false
                fe := false
                roe := false } }
          (.h2 f)) ∧
    (f.pe = false → f.fe = false → f.roe = false → serviceStep (.h1 f) s = serviceStep (.h2 f) s) ∧
    (f.rrdy = false → serviceStep (.h2 f) s = serviceStep (.h3 f) s) ∧
    (f.rrdy = true → 0 < s.inst.hwRxDepth →
      serviceStep (.h2 f) s = .pause s (if s.dev.rxq = [] then .h3 f else .h2read f 0)) ∧
    (∀ w q, s.dev.rxq = w :: q →
      serviceStep (.h2read f k) s = .pause { s with dev := { s.dev with rxq := q } } (.h2push f k w)) ∧
    (∀ s1 : State,
      ((s.rx.count = s.inst.rxCap ∧ s1 = { s with sticky := ⟨s.sticky.pe, s.sticky.fe, true⟩ }) ∨
        (s.rx.count ≠ s.inst.rxCap ∧ ∃ rx', bufPush s.inst.rxCap s.rx v = .ok rx' ∧ s1 = { s with rx := rx' })) →
      (k + 1 < s.inst.hwRxDepth →
        serviceStep (.h2push f k v) s = .pause s1 (if s.dev.rxq = [] then .h3 f else .h2read f (k + 1))) ∧
      (s.inst.hwRxDepth ≤ k + 1 → serviceStep (.h2push f k v) s = serviceStep (.h3 f) s1)) ∧
    (f.trdy = false → serviceStep (.h3 f) s = .done s) ∧
    (f.trdy = true → s.tx.count = 0 →
      serviceStep (.h3 f) s = .pause (s.withEnables ⟨s.ier.rxe, false, s.ier.erre⟩) .h4) ∧
    (f.trdy = true → TrdyHolds f s → s.tx.count ≠ 0 → s.tx.head < s.inst.txCap →
      serviceStep (.h3 f) s =
        .pause
          { s with
            tx :=
              { s.tx with
                head := if s.tx.head + 1 = s.inst.txCap then 0 else s.tx.head + 1
                count := s.tx.count - 1 }
            dev := { s.dev with txq := s.dev.txq ++ [s.tx.store.read s.tx.head] } }
          .h4) ∧
    serviceStep .h4 s = .done s

/-- R216: the command UART.SERVICE runs SERVICE in one critical section (the steps are log entry 8), and ends with OK when SERVICE
does, at whatever point that is: after H3's access, or where a step runs on to H4 without one. -/
def Obligations.ServiceCommandRunsTheHandler : Prop :=
  ∀ s : State,
    (AtStart s → s.lc = .ready →
      exec .uartService s =
        .next
          { s.sectionOpen with
            fg := .running .uartService (.svc (.h1 (statusFlags s.inst.hwTxDepth s.dev))) }) ∧
    (∀ p t q, s.fg = .running .uartService (.svc p) → serviceStep p s = .pause t q →
      exec .uartService s = .next { t with fg := .running .uartService (.svc q) }) ∧
    (∀ p t, s.fg = .running .uartService (.svc p) → serviceStep p s = .done t →
      exec .uartService s = .next (t.sectionClosed.answered 0x00#8 0#32 [])) ∧
    (s.fg = .running .uartService (.svc .h4) →
      exec .uartService s = .next (s.sectionClosed.answered 0x00#8 0#32 [])) ∧
    (∀ f p, (p = .h3 f ∨ (p = .h2 f ∧ f.rrdy = false) ∨
          (p = .h1 f ∧ f.rrdy = false ∧ f.pe = false ∧ f.fe = false ∧ f.roe = false)) →
      s.fg = .running .uartService (.svc p) → f.trdy = false →
      exec .uartService s = .next (s.sectionClosed.answered 0x00#8 0#32 []))

/-- R217: UART.SERVICE run with no other turn in between ends with OK within 2·HW_RX_DEPTH + 4 steps (the steps of log entry
8: one for each access and one more). -/
def Obligations.ServiceIsBounded : Prop :=
  ∀ s : State, Inv s → s.fault = 0#8 → s.fg = .presented → s.lc = .ready →
    ∃ (k : Nat) (t : State), k ≤ 2 * s.inst.hwRxDepth + 4 ∧ execSteps k .uartService s = .next t ∧ t.fg = .idle ∧
      t.port.sts = 0x00#8 ∧ t.port.busy = false ∧ t.fault = 0#8 ∧ t.inCS = false ∧ t.irqc = s.irqc ∧ t.ctr = s.ctr

/-- R75, R213: bytes enter `rx` in the order of arrival. A byte SERVICE deposits follows the bytes `rx` holds, unless `rx` is full:
then it is dropped and the overrun bit is set. And under the invariant every step of every agent keeps the sequence of bytes in
`rx`, in SERVICE's hand and in the hardware queue, but for: an arrival, which appends its byte unless the queue is full; a drop;
the FIFO reset of R237; the commands that take from `rx`, put into it or empty it; and the step of SETUP and CREATE that clears
it. -/
def Obligations.ServiceKeepsArrivalOrder : Prop :=
  (∀ (s : State) (v : Byte), s.rx.Live s.inst.rxCap →
    (s.rx.count ≠ s.inst.rxCap →
      ∃ rx', serviceDeposit v s = .ok { s with rx := rx' } ∧ rx'.Live s.inst.rxCap ∧
        rx'.contents s.inst.rxCap ++ s.dev.rxq = s.rx.contents s.inst.rxCap ++ (v :: s.dev.rxq)) ∧
    (s.rx.count = s.inst.rxCap → serviceDeposit v s = .ok { s with sticky := ⟨s.sticky.pe, s.sticky.fe, true⟩ })) ∧
  ∀ s t : State, Inv s → step s = .next t →
    (∀ v p f, (nextTurn s).1 = .rxArrive v p f →
      t.rxStream = s.rxStream ++ (if s.dev.rxq.length = s.inst.hwRxDepth then [] else [v])) ∧
    (s.dropsByte → t.rxStream = s.rx.contents s.inst.rxCap ++ s.dev.rxq ∧ t.sticky.oe = true) ∧
    (s.resetsFifo → t.rxStream = s.rx.contents s.inst.rxCap) ∧
    ((∀ v p f, (nextTurn s).1 ≠ .rxArrive v p f) → ¬ s.dropsByte → ¬ s.resetsFifo →
      ((nextTurn s).1 = .fg →
        (∀ i, s.fg = .presented → fetchCommand s = .ok i → editsRx i = false) ∧
        (∀ i cfg, s.fg ≠ .running i (.setupCtrl cfg))) →
      t.rxStream = s.rxStream)

/-! ## Whole-machine laws -/

/-- R75, R193: the order bytes go out in. Every step but those of BUF.* and UART.CLEAR on `tx` and of SETUP and CREATE leaves
the sequence of accepted bytes as it is, or appends the byte a PUT or a WRITE accepts. -/
def Obligations.TransmitOrderIsKept : Prop :=
  ∀ s t : State, Inv s → step s = .next t →
    ((nextTurn s).1 ≠ .fg → t.txStream = s.txStream) ∧
    ((nextTurn s).1 = .fg →
      (∀ i, s.fg = .presented → fetchCommand s = .ok i → editsTx i = false) →
      (∀ i cfg, s.fg ≠ .running i (.setupCtrl cfg)) →
      t.txStream = s.txStream ++ s.accepts)

/-- R33: on a transport in use, `tx` holds bytes only while the TX interrupt source is enabled, as long as no BUF.PUSH to `tx`
bypasses the transport; inside a UART.WRITE and at a DESTROY's last step it need not be (log entry 21). -/
def Obligations.TxInterruptFollowsTheBuffer : Prop :=
  ∀ s t : State, Inv s → TxArmed s → (∀ v, fetchCommand s ≠ .ok (.bufPush .tx v)) → step s = .next t → TxArmed t

/-- R192: line errors never stop a transfer: a command other than the three queries gives the same outcome whatever the sticky
bits are, but for the sticky bits themselves. -/
def Obligations.LineErrorsNeverStopATransfer : Prop :=
  ∀ (i : Instr) (s : State) (k : Sticky), i ≠ .uartOverrun → i ≠ .uartFraming → i ≠ .uartParity →
    SameButSticky (exec i { s with sticky := k }) (exec i s)

/-! ## The register view of the device -/

/-- R232, R233, R236: under a legal DEV_MAP the status word decodes to its flags whatever its other bits are, and the control
word to its enables. -/
def Obligations.RegisterWordsRoundTrip : Prop :=
  ∀ (m : DevMap) (e : ErrClear), m.wf e = true →
    (∀ (f : DevFlags) (junk : Word), decodeStatus m (statusWord m f junk) = f) ∧
    (∀ en : Enables, decodeCtrl m (ctrlWord m en) = en ∧ asksReset m (ctrlWord m en) = false)

/-- R233 to R239: on an admitted instance each device operation is the register access the spec gives for it (the register view is
log entry 12, the address BASE + off log entry 23). DevReadRx of an empty queue and DevWriteTx into a full one fault either way.
DevConfigure is the write of the divisor register and the frame-format write, which the spec leaves open (log entry 12). -/
def Obligations.DeviceOperationsAreRegisterAccesses : Prop :=
  ∀ s : State, s.inst.wf = true →
    (∃ w t, memRead (s.inst.base + s.inst.devMap.offStatus) s = .ok (w, t) ∧
      decodeStatus s.inst.devMap w = devStatus s ∧ t.dev = s.dev) ∧
    (∀ v t, devReadRx s = .ok (v, t) →
      ∃ w u, memRead (s.inst.base + s.inst.devMap.offRx) s = .ok (w, u) ∧ w.extractLsb' 0 8 = v ∧ u.dev = t.dev) ∧
    (∀ e, devReadRx s = .error e → memRead (s.inst.base + s.inst.devMap.offRx) s = .error e) ∧
    (∀ v : Byte, memWrite (s.inst.base + s.inst.devMap.offTx) (v.setWidth 32) s = devWriteTx v s) ∧
    (∀ en : Enables,
      memWrite (s.inst.base + s.inst.devMap.offCtrl) (ctrlWord s.inst.devMap en) s = .ok (devWriteCtrl en s)) ∧
    (s.inst.errClear = .writeStatusZero →
      memWrite (s.inst.base + s.inst.devMap.offStatus) 0#32 s = .ok (devClearErr s)) ∧
    (s.inst.errClear = .resetRxFifo →
      memWrite (s.inst.base + s.inst.devMap.offCtrl)
        (ctrlWord s.inst.devMap s.dev.ctrl ||| resetBit s.inst.devMap) s = .ok (devClearErr s)) ∧
    (∀ (cfg : LineConfig) (d : Word),
      ∃ t, memWrite (s.inst.base + s.inst.devMap.offDiv) d s = .ok t ∧
        (∃ c, t.dev = { s.dev with cfg := some (c, d) } ∧ ∀ c0 d0, s.dev.cfg = some (c0, d0) → c = c0) ∧
        (writeFormat cfg t).dev = (devConfigure cfg d s).dev) ∧
    (∃ t, memWrite (s.inst.base + s.inst.devMap.offCtrl) 0#32 s = .ok t ∧
      memWrite (s.inst.base + s.inst.devMap.offStatus) 0#32 t = .ok (devZero s))
end

