-- ==== Sys2Proof/Machine/Fairness.lean ====
section
/-!
DEFINITION. Fairness (spec 20_memory.md R81; 92_eei_decisions.md D13; 93_implementation_defined.md U27): what the spec assumes of
the order of turns in an endless run. `step` takes whatever turn it is given; a claim that something happens eventually assumes
`Fair` of the run. Time has no bound (log entry 14).
-/

namespace Sys2Proof.Machine

/-- An order of turns without end: the turn of step `n`. -/
abbrev Schedule := Nat → Event

/-- A run without end under a schedule: `r n` is the state before step `n`. -/
def IsRun (σ : Schedule) (r : Nat → State) : Prop :=
  ∀ n, step { r n with sched := [σ n] } = .next (r (n + 1))

/-- R36, R72, R252: FG has a step to take: a command presented or in progress, the ISR inactive and no fault. -/
def fgEnabled (s : State) : Bool :=
  decide (s.fault = 0#8) && decide (s.isr = .inactive) && decide (s.fg ≠ .idle)

/-- R81, the weak fairness of FG, ISR and CTR. Of DEV nothing is assumed: "the device may stall forever". -/
structure Fair (σ : Schedule) (r : Nat → State) : Prop where
  /-- R81 (a), D13: CTR ticks infinitely often once `ctr.init` = 1. -/
  ctrTicks : ∀ n, (r n).ctr.init = true → ∀ k, ∃ m, k ≤ m ∧ σ m = .tick
  /-- R81 (b): an FG step that stays enabled is eventually taken. -/
  fgSteps : ∀ n, (∀ m, n ≤ m → fgEnabled (r m) = true) → ∃ m, n ≤ m ∧ σ m = .fg
  /-- R81 (c): a SERVICE whose delivery conditions (R258) hold continuously is eventually started. -/
  serviceStarts : ∀ n, (∀ m, n ≤ m → deliverable (r m) = true) → ∃ m, n ≤ m ∧ σ m = .isr
  /-- R81 (d): a started SERVICE is eventually completed. -/
  serviceEnds : ∀ n, (r n).isr ≠ .inactive → ∃ m, n ≤ m ∧ (r m).isr = .inactive

end Sys2Proof.Machine
end

