-- ==== Sys2Proof/Laws/Fairness.lean ====
section
/-!
SUPPORT. What a run and a fair run give (spec 20_memory.md R81): the induction over a run, once, and the conclusions of the
fairness assumptions as a proof uses them.
-/

namespace Sys2Proof.Machine

/-- A property that every step keeps, and that does not look at the schedule, holds along the whole run. -/
theorem IsRun.invariant {σ : Schedule} {r : Nat → State} (hr : IsRun σ r) {P : State → Prop}
    (sched : ∀ s l, P s → P { s with sched := l }) (keeps : ∀ s t, P s → step s = .next t → P t) (h0 : P (r 0)) :
    ∀ n, P (r n)
  | 0 => h0
  | n + 1 => keeps _ _ (sched _ _ (hr.invariant sched keeps h0 n)) (hr n)

/-- Every state of a run belongs to an instance the spec admits. -/
theorem IsRun.wf {σ : Schedule} {r : Nat → State} (hr : IsRun σ r) (n : Nat) : (r n).inst.wf = true := by
  have h := hr n
  unfold step at h
  split at h
  · assumption
  · cases h

/-- R81 (b), R98: on a fair run FG takes a step, unless it stops being enabled first. -/
theorem Fair.fg_taken_or_disabled {σ : Schedule} {r : Nat → State} (hf : Fair σ r) (n : Nat) :
    ∃ m, n ≤ m ∧ (σ m = .fg ∨ fgEnabled (r m) = false) := by
  by_cases h : ∀ m, n ≤ m → fgEnabled (r m) = true
  · obtain ⟨m, hm, e⟩ := hf.fgSteps n h
    exact ⟨m, hm, .inl e⟩
  · push Not at h
    obtain ⟨m, hm, e⟩ := h
    exact ⟨m, hm, .inr (by simpa using e)⟩

/-- R258, R261: the ISR agent's turn where delivery is allowed. -/
theorem isrStep_deliverable {s : State} (hd : deliverable s = true) : isrStep s = .next (enterService s) := by
  have hs := hd
  simp only [deliverable, Bool.and_eq_true, decide_eq_true_eq] at hs
  simp only [isrStep, hs.1.2, hs.2, hd, ne_eq, not_true_eq_false, if_false, if_true]

/-- R258, R261: an ISR turn of a run at which delivery is allowed starts SERVICE. -/
theorem IsRun.isr_delivers {σ : Schedule} {r : Nat → State} (hr : IsRun σ r) {n : Nat} (e : σ n = .isr)
    (hd : deliverable (r n) = true) : (r (n + 1)).isr = .active .h0 := by
  have h := hr n
  have enters : isrStep { r n with sched := [] } = .next (enterService { r n with sched := [] }) :=
    isrStep_deliverable hd
  simp only [step, e, hr.wf n, if_true, takeTurn, nextTurn] at h
  rw [enters] at h
  exact (congrArg State.isr (Host.Outcome.next.inj h)).symm

/-- R81 (c): on a fair run the delivery conditions of R258 do not hold for ever: SERVICE starts, or a condition ends. -/
theorem Fair.delivery_ends {σ : Schedule} {r : Nat → State} (hr : IsRun σ r) (hf : Fair σ r) (n : Nat) :
    ∃ m, n ≤ m ∧ deliverable (r m) = false := by
  by_contra h
  push Not at h
  have all : ∀ m, n ≤ m → deliverable (r m) = true := fun m hm => by simpa using h m hm
  obtain ⟨m, hm, e⟩ := hf.serviceStarts n all
  have started := hr.isr_delivers e (all m hm)
  have again := all (m + 1) (by omega)
  simp [deliverable, started] at again

end Sys2Proof.Machine
end

