-- ==== Sys2Proof/Laws/Memory.lean ====
section
/-!
SUPPORT. The laws of a buffer's storage: a read after a write, the canonical form, and the slots a write names.
-/

namespace Sys2Proof.Machine

/-! Listing a slot, and taking it out. -/

theorem memory_read_list (m : Memory) (i j : Nat) (v : Byte) :
    (m.list i v).read j = if j = i then v else m.read j := by
  induction m with
  | nil => simp [Memory.list, Memory.read]
  | cons c m ih =>
    obtain ⟨k, w⟩ := c
    by_cases h1 : i < k
    · simp [Memory.list, Memory.read, h1]
    · by_cases h2 : i = k
      · subst h2
        by_cases h : j = i <;> simp [Memory.list, Memory.read, h]
      · by_cases h : j = k
        · subst h; simp [Memory.list, Memory.read, h1, h2, Ne.symm h2]
        · simp [Memory.list, Memory.read, h1, h2, h, ih]

theorem memory_read_filter (m : Memory) (i j : Nat) :
    Memory.read (m.filter (fun c => decide (c.1 ≠ i))) j = if j = i then Memory.unlisted else m.read j := by
  induction m with
  | nil => simp [Memory.read]
  | cons c m ih =>
    obtain ⟨k, w⟩ := c
    by_cases h1 : k = i
    · subst h1
      by_cases h : j = k
      · subst h; simpa using ih
      · simpa [Memory.read, h] using ih
    · by_cases h : j = k
      · subst h; simp [Memory.read, h1]
      · simpa [Memory.read, h1, h] using ih

/-- A read of any slot after a write. -/
theorem memory_read_write (m : Memory) (i j : Nat) (v : Byte) :
    (m.write i v).read j = if j = i then v else m.read j := by
  unfold Memory.write
  split
  · rename_i h; rw [memory_read_filter, h]
  · exact memory_read_list m i j v

theorem memory_read_write_same (m : Memory) (i : Nat) (v : Byte) : (m.write i v).read i = v := by
  simp [memory_read_write]

theorem memory_read_write_other (m : Memory) (i j : Nat) (v : Byte) (h : j ≠ i) :
    (m.write i v).read j = m.read j := by
  simp [memory_read_write, h]

/-! The canonical form. -/

/-- The canonical form, entry by entry. -/
theorem memory_wf_cons (c : Host.Cell) (m : Memory) :
    Memory.wf (c :: m) = true ↔
      c.2 ≠ Memory.unlisted ∧ (∀ d, m.head? = some d → c.1 < d.1) ∧ Memory.wf m = true := by
  cases m with
  | nil => simp [Memory.wf]
  | cons d m => simp [Memory.wf, and_assoc]

/-- The canonical form: the indexes rise strictly, and no entry holds what an unlisted slot holds. -/
theorem memory_wf_iff (m : Memory) :
    Memory.wf m = true ↔ m.Pairwise (fun c d => c.1 < d.1) ∧ ∀ c ∈ m, c.2 ≠ Memory.unlisted := by
  induction m with
  | nil => simp [Memory.wf]
  | cons c m ih =>
    rw [memory_wf_cons, ih, List.pairwise_cons, List.forall_mem_cons]
    constructor
    · rintro ⟨h1, h2, h3, h4⟩
      refine ⟨⟨fun d hd => ?_, h3⟩, h1, h4⟩
      cases m with
      | nil => simp at hd
      | cons e m =>
        have he := h2 e rfl
        obtain rfl | hd := List.mem_cons.1 hd
        · exact he
        · exact Nat.lt_trans he ((List.pairwise_cons.1 h3).1 d hd)
    · rintro ⟨⟨h1, h2⟩, h3, h4⟩
      exact ⟨h3, fun d hd => h1 d (List.mem_of_mem_head? hd), h2, h4⟩

/-- The slots a write names are its own and those named before. -/
theorem memory_list_mem (m : Memory) (i : Nat) (v : Byte) (c : Host.Cell) (h : c ∈ m.list i v) :
    c = (i, v) ∨ c ∈ m := by
  induction m with
  | nil => simpa [Memory.list] using h
  | cons d m ih =>
    obtain ⟨k, w⟩ := d
    simp only [Memory.list] at h
    split at h
    · simpa using h
    · split at h
      · obtain h | h := List.mem_cons.1 h
        · exact .inl h
        · exact .inr (List.mem_cons_of_mem _ h)
      · obtain h | h := List.mem_cons.1 h
        · exact .inr (h ▸ List.mem_cons_self)
        · exact (ih h).imp_right (List.mem_cons_of_mem _)

theorem memory_list_pairwise (m : Memory) (i : Nat) (v : Byte) (h : m.Pairwise (fun c d => c.1 < d.1)) :
    (m.list i v).Pairwise (fun c d => c.1 < d.1) := by
  induction m with
  | nil => simp [Memory.list]
  | cons c m ih =>
    obtain ⟨k, w⟩ := c
    obtain ⟨h1, h2⟩ := List.pairwise_cons.1 h
    simp only [Memory.list]
    split
    · rename_i hlt
      refine List.pairwise_cons.2 ⟨fun d hd => ?_, h⟩
      obtain rfl | hd := List.mem_cons.1 hd
      · exact hlt
      · exact Nat.lt_trans hlt (h1 d hd)
    · split
      · rename_i heq
        exact List.pairwise_cons.2 ⟨fun d hd => by rw [heq]; exact h1 d hd, h2⟩
      · refine List.pairwise_cons.2 ⟨fun d hd => ?_, ih h2⟩
        obtain rfl | hd := memory_list_mem m i v d hd
        · show k < i
          omega
        · exact h1 d hd

/-- Every write keeps the canonical form. -/
theorem memory_write_wf (m : Memory) (i : Nat) (v : Byte) (h : Memory.wf m = true) : (m.write i v).wf = true := by
  obtain ⟨h1, h2⟩ := (memory_wf_iff m).1 h
  unfold Memory.write
  rw [memory_wf_iff]
  split
  · exact ⟨h1.filter _, fun c hc => h2 c (List.mem_filter.1 hc).1⟩
  · rename_i hv
    refine ⟨memory_list_pairwise m i v h1, fun c hc => ?_⟩
    obtain rfl | hc := memory_list_mem m i v c hc
    · exact hv
    · exact h2 c hc

/-- A write names no slot but its own and those named before. -/
theorem memory_write_slots (m : Memory) (i : Nat) (v : Byte) (c : Host.Cell) (h : c ∈ m.write i v) :
    c.1 = i ∨ c ∈ m := by
  unfold Memory.write at h
  split at h
  · exact .inr (List.mem_filter.1 h).1
  · exact (memory_list_mem m i v c h).imp_left (fun e => by rw [e])

/-- A slot that is not named reads as `Memory.unlisted`. -/
theorem memory_read_unnamed (m : Memory) (i : Nat) (h : ∀ c ∈ m, c.1 ≠ i) : m.read i = Memory.unlisted := by
  induction m with
  | nil => rfl
  | cons c m ih =>
    obtain ⟨k, w⟩ := c
    have hk : i ≠ k := fun e => h (k, w) List.mem_cons_self e.symm
    simp [Memory.read, hk, ih fun d hd => h d (List.mem_cons_of_mem _ hd)]

/-- Storages in canonical form that read alike are equal data. -/
theorem memory_ext (m n : Memory) (hm : Memory.wf m = true) (hn : Memory.wf n = true)
    (h : ∀ i, m.read i = n.read i) : m = n := by
  induction m generalizing n with
  | nil =>
    cases n with
    | nil => rfl
    | cons d n =>
      have h1 := h d.1
      simp only [Memory.read, if_true] at h1
      exact absurd h1.symm ((memory_wf_iff _).1 hn |>.2 d List.mem_cons_self)
  | cons c m ih =>
    obtain ⟨hm1, hm2, hm3⟩ := (memory_wf_cons _ _).1 hm
    have hmp := List.pairwise_cons.1 ((memory_wf_iff _).1 hm).1
    cases n with
    | nil =>
      have h1 := h c.1
      simp only [Memory.read, if_true] at h1
      exact absurd h1 hm1
    | cons d n =>
      obtain ⟨hn1, hn2, hn3⟩ := (memory_wf_cons _ _).1 hn
      have hnp := List.pairwise_cons.1 ((memory_wf_iff _).1 hn).1
      obtain ⟨k, v⟩ := c
      obtain ⟨l, w⟩ := d
      have hkl : k = l := by
        obtain hlt | heq | hgt := Nat.lt_trichotomy k l
        · have h1 := h k
          have h2 : Memory.read ((l, w) :: n) k = Memory.unlisted := by
            refine memory_read_unnamed _ _ fun e he => ?_
            obtain rfl | he := List.mem_cons.1 he
            · exact Nat.ne_of_gt hlt
            · have := hnp.1 e he
              simp only at this
              omega
          rw [h2] at h1
          simp only [Memory.read, if_true] at h1
          exact absurd h1 hm1
        · exact heq
        · have h1 := h l
          have h2 : Memory.read ((k, v) :: m) l = Memory.unlisted := by
            refine memory_read_unnamed _ _ fun e he => ?_
            obtain rfl | he := List.mem_cons.1 he
            · exact Nat.ne_of_gt hgt
            · have := hmp.1 e he
              simp only at this
              omega
          rw [h2] at h1
          simp only [Memory.read, if_true] at h1
          exact absurd h1.symm hn1
      subst hkl
      have hvw : v = w := by simpa [Memory.read] using h k
      subst hvw
      rw [ih n hm3 hn3 fun i => ?_]
      by_cases hi : i = k
      · rw [memory_read_unnamed m i fun e he => by have := hmp.1 e he; simp only at this; omega,
          memory_read_unnamed n i fun e he => by have := hnp.1 e he; simp only at this; omega]
      · simpa [Memory.read, hi] using h i

/-- The storage at power-on lists nothing, which is the canonical form. -/
theorem powerOn_store_wf : Memory.wf Buffer.powerOn.store = true := rfl

theorem reset_store_wf : Memory.wf State.reset.tx.store = true ∧ Memory.wf State.reset.rx.store = true := ⟨rfl, rfl⟩

end Sys2Proof.Machine
end

