-- ==== Sys2Proof/Laws/State.lean ====
section
/-!
SUPPORT. One lemma per field of State for each named update, so that no later proof unfolds a record update.
-/

namespace Sys2Proof.Machine

/-! `finishWith` (R47). -/

@[simp] theorem finishWith_inst (st : Status) (r : Word) (d : List Byte) (s : State) : (finishWith st r d s).inst = s.inst := rfl
@[simp] theorem finishWith_sched (st : Status) (r : Word) (d : List Byte) (s : State) : (finishWith st r d s).sched = s.sched := rfl
@[simp] theorem finishWith_draws (st : Status) (r : Word) (d : List Byte) (s : State) : (finishWith st r d s).draws = s.draws := rfl
@[simp] theorem finishWith_tx (st : Status) (r : Word) (d : List Byte) (s : State) : (finishWith st r d s).tx = s.tx := rfl
@[simp] theorem finishWith_rx (st : Status) (r : Word) (d : List Byte) (s : State) : (finishWith st r d s).rx = s.rx := rfl
@[simp] theorem finishWith_ctr (st : Status) (r : Word) (d : List Byte) (s : State) : (finishWith st r d s).ctr = s.ctr := rfl
@[simp] theorem finishWith_sticky (st : Status) (r : Word) (d : List Byte) (s : State) : (finishWith st r d s).sticky = s.sticky := rfl
@[simp] theorem finishWith_ier (st : Status) (r : Word) (d : List Byte) (s : State) : (finishWith st r d s).ier = s.ier := rfl
@[simp] theorem finishWith_lcfg (st : Status) (r : Word) (d : List Byte) (s : State) : (finishWith st r d s).lcfg = s.lcfg := rfl
@[simp] theorem finishWith_fp (st : Status) (r : Word) (d : List Byte) (s : State) : (finishWith st r d s).fp = s.fp := rfl
@[simp] theorem finishWith_irqc (st : Status) (r : Word) (d : List Byte) (s : State) : (finishWith st r d s).irqc = s.irqc := rfl
@[simp] theorem finishWith_lc (st : Status) (r : Word) (d : List Byte) (s : State) : (finishWith st r d s).lc = s.lc := rfl
@[simp] theorem finishWith_fault (st : Status) (r : Word) (d : List Byte) (s : State) : (finishWith st r d s).fault = s.fault := rfl
@[simp] theorem finishWith_fg (st : Status) (r : Word) (d : List Byte) (s : State) : (finishWith st r d s).fg = .idle := rfl
@[simp] theorem finishWith_isr (st : Status) (r : Word) (d : List Byte) (s : State) : (finishWith st r d s).isr = s.isr := rfl
@[simp] theorem finishWith_inCS (st : Status) (r : Word) (d : List Byte) (s : State) : (finishWith st r d s).inCS = s.inCS := rfl
@[simp] theorem finishWith_saved (st : Status) (r : Word) (d : List Byte) (s : State) : (finishWith st r d s).saved = s.saved := rfl
@[simp] theorem finishWith_port (st : Status) (r : Word) (d : List Byte) (s : State) :
    (finishWith st r d s).port = { s.port with sts := st.code, res := r, dout := d, busy := false } := rfl
@[simp] theorem finishWith_dev (st : Status) (r : Word) (d : List Byte) (s : State) : (finishWith st r d s).dev = s.dev := rfl

/-! `finish` (R47). -/

@[simp] theorem finish_inst (st : Status) (r : Word) (s : State) : (finish st r s).inst = s.inst := rfl
@[simp] theorem finish_sched (st : Status) (r : Word) (s : State) : (finish st r s).sched = s.sched := rfl
@[simp] theorem finish_draws (st : Status) (r : Word) (s : State) : (finish st r s).draws = s.draws := rfl
@[simp] theorem finish_tx (st : Status) (r : Word) (s : State) : (finish st r s).tx = s.tx := rfl
@[simp] theorem finish_rx (st : Status) (r : Word) (s : State) : (finish st r s).rx = s.rx := rfl
@[simp] theorem finish_ctr (st : Status) (r : Word) (s : State) : (finish st r s).ctr = s.ctr := rfl
@[simp] theorem finish_sticky (st : Status) (r : Word) (s : State) : (finish st r s).sticky = s.sticky := rfl
@[simp] theorem finish_ier (st : Status) (r : Word) (s : State) : (finish st r s).ier = s.ier := rfl
@[simp] theorem finish_lcfg (st : Status) (r : Word) (s : State) : (finish st r s).lcfg = s.lcfg := rfl
@[simp] theorem finish_fp (st : Status) (r : Word) (s : State) : (finish st r s).fp = s.fp := rfl
@[simp] theorem finish_irqc (st : Status) (r : Word) (s : State) : (finish st r s).irqc = s.irqc := rfl
@[simp] theorem finish_lc (st : Status) (r : Word) (s : State) : (finish st r s).lc = s.lc := rfl
@[simp] theorem finish_fault (st : Status) (r : Word) (s : State) : (finish st r s).fault = s.fault := rfl
@[simp] theorem finish_fg (st : Status) (r : Word) (s : State) : (finish st r s).fg = .idle := rfl
@[simp] theorem finish_isr (st : Status) (r : Word) (s : State) : (finish st r s).isr = s.isr := rfl
@[simp] theorem finish_inCS (st : Status) (r : Word) (s : State) : (finish st r s).inCS = s.inCS := rfl
@[simp] theorem finish_saved (st : Status) (r : Word) (s : State) : (finish st r s).saved = s.saved := rfl
@[simp] theorem finish_port (st : Status) (r : Word) (s : State) :
    (finish st r s).port = { s.port with sts := st.code, res := r, dout := [], busy := false } := rfl
@[simp] theorem finish_dev (st : Status) (r : Word) (s : State) : (finish st r s).dev = s.dev := rfl

/-! `raiseFault` (R252). -/

@[simp] theorem raiseFault_inst (c : FaultCode) (s : State) : (raiseFault c s).inst = s.inst := rfl
@[simp] theorem raiseFault_sched (c : FaultCode) (s : State) : (raiseFault c s).sched = s.sched := rfl
@[simp] theorem raiseFault_draws (c : FaultCode) (s : State) : (raiseFault c s).draws = s.draws := rfl
@[simp] theorem raiseFault_tx (c : FaultCode) (s : State) : (raiseFault c s).tx = s.tx := rfl
@[simp] theorem raiseFault_rx (c : FaultCode) (s : State) : (raiseFault c s).rx = s.rx := rfl
@[simp] theorem raiseFault_ctr (c : FaultCode) (s : State) : (raiseFault c s).ctr = s.ctr := rfl
@[simp] theorem raiseFault_sticky (c : FaultCode) (s : State) : (raiseFault c s).sticky = s.sticky := rfl
@[simp] theorem raiseFault_ier (c : FaultCode) (s : State) : (raiseFault c s).ier = s.ier := rfl
@[simp] theorem raiseFault_lcfg (c : FaultCode) (s : State) : (raiseFault c s).lcfg = s.lcfg := rfl
@[simp] theorem raiseFault_fp (c : FaultCode) (s : State) : (raiseFault c s).fp = s.fp := rfl
@[simp] theorem raiseFault_irqc (c : FaultCode) (s : State) : (raiseFault c s).irqc = s.irqc := rfl
@[simp] theorem raiseFault_lc (c : FaultCode) (s : State) : (raiseFault c s).lc = s.lc := rfl
@[simp] theorem raiseFault_fault (c : FaultCode) (s : State) : (raiseFault c s).fault = c.code := rfl
@[simp] theorem raiseFault_fg (c : FaultCode) (s : State) : (raiseFault c s).fg = .idle := rfl
@[simp] theorem raiseFault_isr (c : FaultCode) (s : State) : (raiseFault c s).isr = .inactive := rfl
@[simp] theorem raiseFault_inCS (c : FaultCode) (s : State) : (raiseFault c s).inCS = s.inCS := rfl
@[simp] theorem raiseFault_saved (c : FaultCode) (s : State) : (raiseFault c s).saved = s.saved := rfl
@[simp] theorem raiseFault_port (c : FaultCode) (s : State) :
    (raiseFault c s).port = { s.port with sts := 0xFF#8, res := 0#32, dout := [], busy := false } := rfl
@[simp] theorem raiseFault_dev (c : FaultCode) (s : State) : (raiseFault c s).dev = s.dev := rfl

/-! `csEnter` (R73). -/

@[simp] theorem csEnter_inst (s : State) : (csEnter s).inst = s.inst := rfl
@[simp] theorem csEnter_sched (s : State) : (csEnter s).sched = s.sched := rfl
@[simp] theorem csEnter_draws (s : State) : (csEnter s).draws = s.draws := rfl
@[simp] theorem csEnter_tx (s : State) : (csEnter s).tx = s.tx := rfl
@[simp] theorem csEnter_rx (s : State) : (csEnter s).rx = s.rx := rfl
@[simp] theorem csEnter_ctr (s : State) : (csEnter s).ctr = s.ctr := rfl
@[simp] theorem csEnter_sticky (s : State) : (csEnter s).sticky = s.sticky := rfl
@[simp] theorem csEnter_ier (s : State) : (csEnter s).ier = s.ier := rfl
@[simp] theorem csEnter_lcfg (s : State) : (csEnter s).lcfg = s.lcfg := rfl
@[simp] theorem csEnter_fp (s : State) : (csEnter s).fp = s.fp := rfl
@[simp] theorem csEnter_irqc (s : State) :
    (csEnter s).irqc = if s.inst.irq.isSome then { s.irqc with enabled := false } else s.irqc := rfl
@[simp] theorem csEnter_lc (s : State) : (csEnter s).lc = s.lc := rfl
@[simp] theorem csEnter_fault (s : State) : (csEnter s).fault = s.fault := rfl
@[simp] theorem csEnter_fg (s : State) : (csEnter s).fg = s.fg := rfl
@[simp] theorem csEnter_isr (s : State) : (csEnter s).isr = s.isr := rfl
@[simp] theorem csEnter_inCS (s : State) : (csEnter s).inCS = true := rfl
@[simp] theorem csEnter_saved (s : State) :
    (csEnter s).saved = if s.inst.irq.isSome then s.irqc.enabled else s.saved := rfl
@[simp] theorem csEnter_port (s : State) : (csEnter s).port = s.port := rfl
@[simp] theorem csEnter_dev (s : State) : (csEnter s).dev = s.dev := rfl

/-! `csExit` (R73). -/

@[simp] theorem csExit_inst (s : State) : (csExit s).inst = s.inst := rfl
@[simp] theorem csExit_sched (s : State) : (csExit s).sched = s.sched := rfl
@[simp] theorem csExit_draws (s : State) : (csExit s).draws = s.draws := rfl
@[simp] theorem csExit_tx (s : State) : (csExit s).tx = s.tx := rfl
@[simp] theorem csExit_rx (s : State) : (csExit s).rx = s.rx := rfl
@[simp] theorem csExit_ctr (s : State) : (csExit s).ctr = s.ctr := rfl
@[simp] theorem csExit_sticky (s : State) : (csExit s).sticky = s.sticky := rfl
@[simp] theorem csExit_ier (s : State) : (csExit s).ier = s.ier := rfl
@[simp] theorem csExit_lcfg (s : State) : (csExit s).lcfg = s.lcfg := rfl
@[simp] theorem csExit_fp (s : State) : (csExit s).fp = s.fp := rfl
@[simp] theorem csExit_irqc (s : State) :
    (csExit s).irqc = if s.inst.irq.isSome then { s.irqc with enabled := s.saved } else s.irqc := rfl
@[simp] theorem csExit_lc (s : State) : (csExit s).lc = s.lc := rfl
@[simp] theorem csExit_fault (s : State) : (csExit s).fault = s.fault := rfl
@[simp] theorem csExit_fg (s : State) : (csExit s).fg = s.fg := rfl
@[simp] theorem csExit_isr (s : State) : (csExit s).isr = s.isr := rfl
@[simp] theorem csExit_inCS (s : State) : (csExit s).inCS = false := rfl
@[simp] theorem csExit_saved (s : State) : (csExit s).saved = s.saved := rfl
@[simp] theorem csExit_port (s : State) : (csExit s).port = s.port := rfl
@[simp] theorem csExit_dev (s : State) : (csExit s).dev = s.dev := rfl

/-! `ensureInit` (R144). -/

@[simp] theorem ensureInit_inst (s : State) : (ensureInit s).inst = s.inst := rfl
@[simp] theorem ensureInit_sched (s : State) : (ensureInit s).sched = s.sched := rfl
@[simp] theorem ensureInit_draws (s : State) : (ensureInit s).draws = if s.ctr.init then s.draws else s.draws + 1 := rfl
@[simp] theorem ensureInit_tx (s : State) : (ensureInit s).tx = s.tx := rfl
@[simp] theorem ensureInit_rx (s : State) : (ensureInit s).rx = s.rx := rfl
@[simp] theorem ensureInit_ctr (s : State) :
    (ensureInit s).ctr = if s.ctr.init then s.ctr else ⟨true, Config.draw s.draws⟩ := rfl
@[simp] theorem ensureInit_sticky (s : State) : (ensureInit s).sticky = s.sticky := rfl
@[simp] theorem ensureInit_ier (s : State) : (ensureInit s).ier = s.ier := rfl
@[simp] theorem ensureInit_lcfg (s : State) : (ensureInit s).lcfg = s.lcfg := rfl
@[simp] theorem ensureInit_fp (s : State) : (ensureInit s).fp = s.fp := rfl
@[simp] theorem ensureInit_irqc (s : State) : (ensureInit s).irqc = s.irqc := rfl
@[simp] theorem ensureInit_lc (s : State) : (ensureInit s).lc = s.lc := rfl
@[simp] theorem ensureInit_fault (s : State) : (ensureInit s).fault = s.fault := rfl
@[simp] theorem ensureInit_fg (s : State) : (ensureInit s).fg = s.fg := rfl
@[simp] theorem ensureInit_isr (s : State) : (ensureInit s).isr = s.isr := rfl
@[simp] theorem ensureInit_inCS (s : State) : (ensureInit s).inCS = s.inCS := rfl
@[simp] theorem ensureInit_saved (s : State) : (ensureInit s).saved = s.saved := rfl
@[simp] theorem ensureInit_port (s : State) : (ensureInit s).port = s.port := rfl
@[simp] theorem ensureInit_dev (s : State) : (ensureInit s).dev = s.dev := rfl

/-! `devWriteCtrl` (R236). -/

@[simp] theorem devWriteCtrl_inst (m : Enables) (s : State) : (devWriteCtrl m s).inst = s.inst := rfl
@[simp] theorem devWriteCtrl_sched (m : Enables) (s : State) : (devWriteCtrl m s).sched = s.sched := rfl
@[simp] theorem devWriteCtrl_draws (m : Enables) (s : State) : (devWriteCtrl m s).draws = s.draws := rfl
@[simp] theorem devWriteCtrl_tx (m : Enables) (s : State) : (devWriteCtrl m s).tx = s.tx := rfl
@[simp] theorem devWriteCtrl_rx (m : Enables) (s : State) : (devWriteCtrl m s).rx = s.rx := rfl
@[simp] theorem devWriteCtrl_ctr (m : Enables) (s : State) : (devWriteCtrl m s).ctr = s.ctr := rfl
@[simp] theorem devWriteCtrl_sticky (m : Enables) (s : State) : (devWriteCtrl m s).sticky = s.sticky := rfl
@[simp] theorem devWriteCtrl_ier (m : Enables) (s : State) : (devWriteCtrl m s).ier = s.ier := rfl
@[simp] theorem devWriteCtrl_lcfg (m : Enables) (s : State) : (devWriteCtrl m s).lcfg = s.lcfg := rfl
@[simp] theorem devWriteCtrl_fp (m : Enables) (s : State) : (devWriteCtrl m s).fp = s.fp := rfl
@[simp] theorem devWriteCtrl_irqc (m : Enables) (s : State) : (devWriteCtrl m s).irqc = s.irqc := rfl
@[simp] theorem devWriteCtrl_lc (m : Enables) (s : State) : (devWriteCtrl m s).lc = s.lc := rfl
@[simp] theorem devWriteCtrl_fault (m : Enables) (s : State) : (devWriteCtrl m s).fault = s.fault := rfl
@[simp] theorem devWriteCtrl_fg (m : Enables) (s : State) : (devWriteCtrl m s).fg = s.fg := rfl
@[simp] theorem devWriteCtrl_isr (m : Enables) (s : State) : (devWriteCtrl m s).isr = s.isr := rfl
@[simp] theorem devWriteCtrl_inCS (m : Enables) (s : State) : (devWriteCtrl m s).inCS = s.inCS := rfl
@[simp] theorem devWriteCtrl_saved (m : Enables) (s : State) : (devWriteCtrl m s).saved = s.saved := rfl
@[simp] theorem devWriteCtrl_port (m : Enables) (s : State) : (devWriteCtrl m s).port = s.port := rfl
@[simp] theorem devWriteCtrl_dev (m : Enables) (s : State) : (devWriteCtrl m s).dev = { s.dev with ctrl := m } := rfl

/-! `setIer` (R28). -/

@[simp] theorem setIer_inst (m : Enables) (s : State) : (setIer m s).inst = s.inst := rfl
@[simp] theorem setIer_sched (m : Enables) (s : State) : (setIer m s).sched = s.sched := rfl
@[simp] theorem setIer_draws (m : Enables) (s : State) : (setIer m s).draws = s.draws := rfl
@[simp] theorem setIer_tx (m : Enables) (s : State) : (setIer m s).tx = s.tx := rfl
@[simp] theorem setIer_rx (m : Enables) (s : State) : (setIer m s).rx = s.rx := rfl
@[simp] theorem setIer_ctr (m : Enables) (s : State) : (setIer m s).ctr = s.ctr := rfl
@[simp] theorem setIer_sticky (m : Enables) (s : State) : (setIer m s).sticky = s.sticky := rfl
@[simp] theorem setIer_ier (m : Enables) (s : State) : (setIer m s).ier = m := rfl
@[simp] theorem setIer_lcfg (m : Enables) (s : State) : (setIer m s).lcfg = s.lcfg := rfl
@[simp] theorem setIer_fp (m : Enables) (s : State) : (setIer m s).fp = s.fp := rfl
@[simp] theorem setIer_irqc (m : Enables) (s : State) : (setIer m s).irqc = s.irqc := rfl
@[simp] theorem setIer_lc (m : Enables) (s : State) : (setIer m s).lc = s.lc := rfl
@[simp] theorem setIer_fault (m : Enables) (s : State) : (setIer m s).fault = s.fault := rfl
@[simp] theorem setIer_fg (m : Enables) (s : State) : (setIer m s).fg = s.fg := rfl
@[simp] theorem setIer_isr (m : Enables) (s : State) : (setIer m s).isr = s.isr := rfl
@[simp] theorem setIer_inCS (m : Enables) (s : State) : (setIer m s).inCS = s.inCS := rfl
@[simp] theorem setIer_saved (m : Enables) (s : State) : (setIer m s).saved = s.saved := rfl
@[simp] theorem setIer_port (m : Enables) (s : State) : (setIer m s).port = s.port := rfl
@[simp] theorem setIer_dev (m : Enables) (s : State) : (setIer m s).dev = { s.dev with ctrl := m } := rfl

/-! `devClearErr` (R237). -/

@[simp] theorem devClearErr_inst (s : State) : (devClearErr s).inst = s.inst := rfl
@[simp] theorem devClearErr_sched (s : State) : (devClearErr s).sched = s.sched := rfl
@[simp] theorem devClearErr_draws (s : State) : (devClearErr s).draws = s.draws := rfl
@[simp] theorem devClearErr_tx (s : State) : (devClearErr s).tx = s.tx := rfl
@[simp] theorem devClearErr_rx (s : State) : (devClearErr s).rx = s.rx := rfl
@[simp] theorem devClearErr_ctr (s : State) : (devClearErr s).ctr = s.ctr := rfl
@[simp] theorem devClearErr_sticky (s : State) : (devClearErr s).sticky = s.sticky := rfl
@[simp] theorem devClearErr_ier (s : State) : (devClearErr s).ier = s.ier := rfl
@[simp] theorem devClearErr_lcfg (s : State) : (devClearErr s).lcfg = s.lcfg := rfl
@[simp] theorem devClearErr_fp (s : State) : (devClearErr s).fp = s.fp := rfl
@[simp] theorem devClearErr_irqc (s : State) : (devClearErr s).irqc = s.irqc := rfl
@[simp] theorem devClearErr_lc (s : State) : (devClearErr s).lc = s.lc := rfl
@[simp] theorem devClearErr_fault (s : State) : (devClearErr s).fault = s.fault := rfl
@[simp] theorem devClearErr_fg (s : State) : (devClearErr s).fg = s.fg := rfl
@[simp] theorem devClearErr_isr (s : State) : (devClearErr s).isr = s.isr := rfl
@[simp] theorem devClearErr_inCS (s : State) : (devClearErr s).inCS = s.inCS := rfl
@[simp] theorem devClearErr_saved (s : State) : (devClearErr s).saved = s.saved := rfl
@[simp] theorem devClearErr_port (s : State) : (devClearErr s).port = s.port := rfl

/-! `devConfigure` (R238). -/

@[simp] theorem devConfigure_inst (cfg : LineConfig) (d : Word) (s : State) : (devConfigure cfg d s).inst = s.inst := rfl
@[simp] theorem devConfigure_sched (cfg : LineConfig) (d : Word) (s : State) : (devConfigure cfg d s).sched = s.sched := rfl
@[simp] theorem devConfigure_draws (cfg : LineConfig) (d : Word) (s : State) : (devConfigure cfg d s).draws = s.draws := rfl
@[simp] theorem devConfigure_tx (cfg : LineConfig) (d : Word) (s : State) : (devConfigure cfg d s).tx = s.tx := rfl
@[simp] theorem devConfigure_rx (cfg : LineConfig) (d : Word) (s : State) : (devConfigure cfg d s).rx = s.rx := rfl
@[simp] theorem devConfigure_ctr (cfg : LineConfig) (d : Word) (s : State) : (devConfigure cfg d s).ctr = s.ctr := rfl
@[simp] theorem devConfigure_sticky (cfg : LineConfig) (d : Word) (s : State) : (devConfigure cfg d s).sticky = s.sticky := rfl
@[simp] theorem devConfigure_ier (cfg : LineConfig) (d : Word) (s : State) : (devConfigure cfg d s).ier = s.ier := rfl
@[simp] theorem devConfigure_lcfg (cfg : LineConfig) (d : Word) (s : State) : (devConfigure cfg d s).lcfg = s.lcfg := rfl
@[simp] theorem devConfigure_fp (cfg : LineConfig) (d : Word) (s : State) : (devConfigure cfg d s).fp = s.fp := rfl
@[simp] theorem devConfigure_irqc (cfg : LineConfig) (d : Word) (s : State) : (devConfigure cfg d s).irqc = s.irqc := rfl
@[simp] theorem devConfigure_lc (cfg : LineConfig) (d : Word) (s : State) : (devConfigure cfg d s).lc = s.lc := rfl
@[simp] theorem devConfigure_fault (cfg : LineConfig) (d : Word) (s : State) : (devConfigure cfg d s).fault = s.fault := rfl
@[simp] theorem devConfigure_fg (cfg : LineConfig) (d : Word) (s : State) : (devConfigure cfg d s).fg = s.fg := rfl
@[simp] theorem devConfigure_isr (cfg : LineConfig) (d : Word) (s : State) : (devConfigure cfg d s).isr = s.isr := rfl
@[simp] theorem devConfigure_inCS (cfg : LineConfig) (d : Word) (s : State) : (devConfigure cfg d s).inCS = s.inCS := rfl
@[simp] theorem devConfigure_saved (cfg : LineConfig) (d : Word) (s : State) : (devConfigure cfg d s).saved = s.saved := rfl
@[simp] theorem devConfigure_port (cfg : LineConfig) (d : Word) (s : State) : (devConfigure cfg d s).port = s.port := rfl
@[simp] theorem devConfigure_dev (cfg : LineConfig) (d : Word) (s : State) : (devConfigure cfg d s).dev = { s.dev with cfg := some (cfg, d) } := rfl

/-! `devZero` (R239). -/

@[simp] theorem devZero_inst (s : State) : (devZero s).inst = s.inst := rfl
@[simp] theorem devZero_sched (s : State) : (devZero s).sched = s.sched := rfl
@[simp] theorem devZero_draws (s : State) : (devZero s).draws = s.draws := rfl
@[simp] theorem devZero_tx (s : State) : (devZero s).tx = s.tx := rfl
@[simp] theorem devZero_rx (s : State) : (devZero s).rx = s.rx := rfl
@[simp] theorem devZero_ctr (s : State) : (devZero s).ctr = s.ctr := rfl
@[simp] theorem devZero_sticky (s : State) : (devZero s).sticky = s.sticky := rfl
@[simp] theorem devZero_ier (s : State) : (devZero s).ier = s.ier := rfl
@[simp] theorem devZero_lcfg (s : State) : (devZero s).lcfg = s.lcfg := rfl
@[simp] theorem devZero_fp (s : State) : (devZero s).fp = s.fp := rfl
@[simp] theorem devZero_irqc (s : State) : (devZero s).irqc = s.irqc := rfl
@[simp] theorem devZero_lc (s : State) : (devZero s).lc = s.lc := rfl
@[simp] theorem devZero_fault (s : State) : (devZero s).fault = s.fault := rfl
@[simp] theorem devZero_fg (s : State) : (devZero s).fg = s.fg := rfl
@[simp] theorem devZero_isr (s : State) : (devZero s).isr = s.isr := rfl
@[simp] theorem devZero_inCS (s : State) : (devZero s).inCS = s.inCS := rfl
@[simp] theorem devZero_saved (s : State) : (devZero s).saved = s.saved := rfl
@[simp] theorem devZero_port (s : State) : (devZero s).port = s.port := rfl
@[simp] theorem devZero_dev (s : State) :
    (devZero s).dev = { s.dev with ctrl := .zero, pe := false, fe := false, roe := false } := rfl

/-! `presented` (R48). -/

@[simp] theorem presented_inst (cmd a b : Word) (din : List Byte) (s : State) : (presented cmd a b din s).inst = s.inst := rfl
@[simp] theorem presented_sched (cmd a b : Word) (din : List Byte) (s : State) : (presented cmd a b din s).sched = s.sched := rfl
@[simp] theorem presented_draws (cmd a b : Word) (din : List Byte) (s : State) : (presented cmd a b din s).draws = s.draws := rfl
@[simp] theorem presented_tx (cmd a b : Word) (din : List Byte) (s : State) : (presented cmd a b din s).tx = s.tx := rfl
@[simp] theorem presented_rx (cmd a b : Word) (din : List Byte) (s : State) : (presented cmd a b din s).rx = s.rx := rfl
@[simp] theorem presented_ctr (cmd a b : Word) (din : List Byte) (s : State) : (presented cmd a b din s).ctr = s.ctr := rfl
@[simp] theorem presented_sticky (cmd a b : Word) (din : List Byte) (s : State) : (presented cmd a b din s).sticky = s.sticky := rfl
@[simp] theorem presented_ier (cmd a b : Word) (din : List Byte) (s : State) : (presented cmd a b din s).ier = s.ier := rfl
@[simp] theorem presented_lcfg (cmd a b : Word) (din : List Byte) (s : State) : (presented cmd a b din s).lcfg = s.lcfg := rfl
@[simp] theorem presented_fp (cmd a b : Word) (din : List Byte) (s : State) : (presented cmd a b din s).fp = s.fp := rfl
@[simp] theorem presented_irqc (cmd a b : Word) (din : List Byte) (s : State) : (presented cmd a b din s).irqc = s.irqc := rfl
@[simp] theorem presented_lc (cmd a b : Word) (din : List Byte) (s : State) : (presented cmd a b din s).lc = s.lc := rfl
@[simp] theorem presented_fault (cmd a b : Word) (din : List Byte) (s : State) : (presented cmd a b din s).fault = s.fault := rfl
@[simp] theorem presented_fg (cmd a b : Word) (din : List Byte) (s : State) : (presented cmd a b din s).fg = .presented := rfl
@[simp] theorem presented_isr (cmd a b : Word) (din : List Byte) (s : State) : (presented cmd a b din s).isr = s.isr := rfl
@[simp] theorem presented_inCS (cmd a b : Word) (din : List Byte) (s : State) : (presented cmd a b din s).inCS = s.inCS := rfl
@[simp] theorem presented_saved (cmd a b : Word) (din : List Byte) (s : State) : (presented cmd a b din s).saved = s.saved := rfl
@[simp] theorem presented_port (cmd a b : Word) (din : List Byte) (s : State) :
    (presented cmd a b din s).port = { s.port with cmd := cmd, opa := a, opb := b, din := din, busy := true } := rfl
@[simp] theorem presented_dev (cmd a b : Word) (din : List Byte) (s : State) : (presented cmd a b din s).dev = s.dev := rfl

/-! `enterService` (R261). -/

@[simp] theorem enterService_inst (s : State) : (enterService s).inst = s.inst := rfl
@[simp] theorem enterService_sched (s : State) : (enterService s).sched = s.sched := rfl
@[simp] theorem enterService_draws (s : State) : (enterService s).draws = s.draws := rfl
@[simp] theorem enterService_tx (s : State) : (enterService s).tx = s.tx := rfl
@[simp] theorem enterService_rx (s : State) : (enterService s).rx = s.rx := rfl
@[simp] theorem enterService_ctr (s : State) : (enterService s).ctr = s.ctr := rfl
@[simp] theorem enterService_sticky (s : State) : (enterService s).sticky = s.sticky := rfl
@[simp] theorem enterService_ier (s : State) : (enterService s).ier = s.ier := rfl
@[simp] theorem enterService_lcfg (s : State) : (enterService s).lcfg = s.lcfg := rfl
@[simp] theorem enterService_fp (s : State) : (enterService s).fp = s.fp := rfl
@[simp] theorem enterService_irqc (s : State) : (enterService s).irqc = s.irqc := rfl
@[simp] theorem enterService_lc (s : State) : (enterService s).lc = s.lc := rfl
@[simp] theorem enterService_fault (s : State) : (enterService s).fault = s.fault := rfl
@[simp] theorem enterService_fg (s : State) : (enterService s).fg = s.fg := rfl
@[simp] theorem enterService_isr (s : State) : (enterService s).isr = .active .h0 := rfl
@[simp] theorem enterService_inCS (s : State) : (enterService s).inCS = s.inCS := rfl
@[simp] theorem enterService_saved (s : State) : (enterService s).saved = s.saved := rfl
@[simp] theorem enterService_port (s : State) : (enterService s).port = s.port := rfl
@[simp] theorem enterService_dev (s : State) : (enterService s).dev = s.dev := rfl

/-! `leaveService` (R262). -/

@[simp] theorem leaveService_inst (s : State) : (leaveService s).inst = s.inst := rfl
@[simp] theorem leaveService_sched (s : State) : (leaveService s).sched = s.sched := rfl
@[simp] theorem leaveService_draws (s : State) : (leaveService s).draws = s.draws := rfl
@[simp] theorem leaveService_tx (s : State) : (leaveService s).tx = s.tx := rfl
@[simp] theorem leaveService_rx (s : State) : (leaveService s).rx = s.rx := rfl
@[simp] theorem leaveService_ctr (s : State) : (leaveService s).ctr = s.ctr := rfl
@[simp] theorem leaveService_sticky (s : State) : (leaveService s).sticky = s.sticky := rfl
@[simp] theorem leaveService_ier (s : State) : (leaveService s).ier = s.ier := rfl
@[simp] theorem leaveService_lcfg (s : State) : (leaveService s).lcfg = s.lcfg := rfl
@[simp] theorem leaveService_fp (s : State) : (leaveService s).fp = s.fp := rfl
@[simp] theorem leaveService_irqc (s : State) : (leaveService s).irqc = s.irqc := rfl
@[simp] theorem leaveService_lc (s : State) : (leaveService s).lc = s.lc := rfl
@[simp] theorem leaveService_fault (s : State) : (leaveService s).fault = s.fault := rfl
@[simp] theorem leaveService_fg (s : State) : (leaveService s).fg = s.fg := rfl
@[simp] theorem leaveService_isr (s : State) : (leaveService s).isr = .inactive := rfl
@[simp] theorem leaveService_inCS (s : State) : (leaveService s).inCS = s.inCS := rfl
@[simp] theorem leaveService_saved (s : State) : (leaveService s).saved = s.saved := rfl
@[simp] theorem leaveService_port (s : State) : (leaveService s).port = s.port := rfl
@[simp] theorem leaveService_dev (s : State) : (leaveService s).dev = s.dev := rfl

/-! `State.setBuf` (R92). -/

@[simp] theorem setBuf_inst (s : State) (b : BufId) (v : Buffer) : (s.setBuf b v).inst = s.inst := by
  cases b <;> rfl
@[simp] theorem setBuf_sched (s : State) (b : BufId) (v : Buffer) : (s.setBuf b v).sched = s.sched := by
  cases b <;> rfl
@[simp] theorem setBuf_draws (s : State) (b : BufId) (v : Buffer) : (s.setBuf b v).draws = s.draws := by
  cases b <;> rfl
@[simp] theorem setBuf_ctr (s : State) (b : BufId) (v : Buffer) : (s.setBuf b v).ctr = s.ctr := by
  cases b <;> rfl
@[simp] theorem setBuf_sticky (s : State) (b : BufId) (v : Buffer) : (s.setBuf b v).sticky = s.sticky := by
  cases b <;> rfl
@[simp] theorem setBuf_ier (s : State) (b : BufId) (v : Buffer) : (s.setBuf b v).ier = s.ier := by
  cases b <;> rfl
@[simp] theorem setBuf_lcfg (s : State) (b : BufId) (v : Buffer) : (s.setBuf b v).lcfg = s.lcfg := by
  cases b <;> rfl
@[simp] theorem setBuf_fp (s : State) (b : BufId) (v : Buffer) : (s.setBuf b v).fp = s.fp := by
  cases b <;> rfl
@[simp] theorem setBuf_irqc (s : State) (b : BufId) (v : Buffer) : (s.setBuf b v).irqc = s.irqc := by
  cases b <;> rfl
@[simp] theorem setBuf_lc (s : State) (b : BufId) (v : Buffer) : (s.setBuf b v).lc = s.lc := by
  cases b <;> rfl
@[simp] theorem setBuf_fault (s : State) (b : BufId) (v : Buffer) : (s.setBuf b v).fault = s.fault := by
  cases b <;> rfl
@[simp] theorem setBuf_fg (s : State) (b : BufId) (v : Buffer) : (s.setBuf b v).fg = s.fg := by
  cases b <;> rfl
@[simp] theorem setBuf_isr (s : State) (b : BufId) (v : Buffer) : (s.setBuf b v).isr = s.isr := by
  cases b <;> rfl
@[simp] theorem setBuf_inCS (s : State) (b : BufId) (v : Buffer) : (s.setBuf b v).inCS = s.inCS := by
  cases b <;> rfl
@[simp] theorem setBuf_saved (s : State) (b : BufId) (v : Buffer) : (s.setBuf b v).saved = s.saved := by
  cases b <;> rfl
@[simp] theorem setBuf_port (s : State) (b : BufId) (v : Buffer) : (s.setBuf b v).port = s.port := by
  cases b <;> rfl
@[simp] theorem setBuf_dev (s : State) (b : BufId) (v : Buffer) : (s.setBuf b v).dev = s.dev := by
  cases b <;> rfl

@[simp] theorem setBuf_buf_same (s : State) (b : BufId) (v : Buffer) : (s.setBuf b v).buf b = v := by cases b <;> rfl
@[simp] theorem setBuf_tx_tx (s : State) (v : Buffer) : (s.setBuf .tx v).tx = v := rfl
@[simp] theorem setBuf_tx_rx (s : State) (v : Buffer) : (s.setBuf .tx v).rx = s.rx := rfl
@[simp] theorem setBuf_rx_rx (s : State) (v : Buffer) : (s.setBuf .rx v).rx = v := rfl
@[simp] theorem setBuf_rx_tx (s : State) (v : Buffer) : (s.setBuf .rx v).tx = s.tx := rfl

theorem setBuf_buf_other (s : State) (a b : BufId) (v : Buffer) (h : a ≠ b) : (s.setBuf b v).buf a = s.buf a := by
  cases a <;> cases b <;> first | rfl | exact absurd rfl h

@[simp] theorem buf_tx (s : State) : s.buf .tx = s.tx := rfl
@[simp] theorem buf_rx (s : State) : s.buf .rx = s.rx := rfl
@[simp] theorem cap_tx (s : State) : s.cap .tx = s.inst.txCap := rfl
@[simp] theorem cap_rx (s : State) : s.cap .rx = s.inst.rxCap := rfl

/-! Composites. -/

/-- R73: a critical section that changes nothing restores `irqc`. -/
@[simp] theorem csExit_csEnter_irqc (s : State) : (csExit (csEnter s)).irqc = s.irqc := by
  by_cases h : s.inst.irq.isSome <;> simp [h]

@[simp] theorem point_running (i : Instr) (p : FgPoint) : (FgState.running i p).point = some p := rfl
@[simp] theorem point_idle : FgState.idle.point = none := rfl
@[simp] theorem point_presented : FgState.presented.point = none := rfl

@[simp] theorem onOk_ok {α : Type} (a : α) (s : State) (k : α → Outcome) : onOk (.ok a) s k = k a := rfl
@[simp] theorem onOk_error {α : Type} (e : Stop) (s : State) (k : α → Outcome) :
    onOk (.error e) s k = e.outcome s := rfl
@[simp] theorem outcome_raise (c : FaultCode) (s : State) :
    (Stop.raise c).outcome s = .next (raiseFault c s) := rfl
@[simp] theorem outcome_stop (f : Fault) (s : State) : (Stop.stop f).outcome s = .fault f := rfl

end Sys2Proof.Machine
end

