-- ==== Sys2Proof/Laws/Ops.lean ====
section
/-!
SUPPORT. One lemma per shared operation that says once everything it can do.
-/

namespace Sys2Proof.Machine

/-! The cursors and the buffer primitives. -/

theorem inc_lt {i cap : Nat} (h : i < cap) : inc i cap < cap := by
  unfold inc; split <;> omega

/-- R120: in range, Inc is the successor modulo the capacity. -/
theorem inc_eq_mod {i cap : Nat} (h : i < cap) : inc i cap = (i + 1) % cap := by
  unfold inc
  split
  · rename_i h1; rw [h1, Nat.mod_self]
  · rw [Nat.mod_eq_of_lt (by omega)]

theorem bufPush_cases {cap : Nat} {b : Buffer} {v : Byte} {r : Except Stop Buffer} (h : bufPush cap b v = r) :
    (b.count = cap ∧ r = .error (.raise .pushFull)) ∨
    (b.count ≠ cap ∧ b.tail < cap ∧
      r = .ok { b with store := b.store.write b.tail v, tail := inc b.tail cap, count := b.count + 1 }) ∨
    (b.count ≠ cap ∧ ¬ b.tail < cap ∧ r = .error (.stop .noSlot)) := by
  subst h
  unfold bufPush
  by_cases h1 : b.count = cap
  · simp [h1]
  · by_cases h2 : b.tail < cap <;> simp [h1, h2]

theorem bufPop_cases {cap : Nat} {b : Buffer} {r : Except Stop Buffer} (h : bufPop cap b = r) :
    (b.count = 0 ∧ r = .error (.raise .popEmpty)) ∨
    (b.count ≠ 0 ∧ r = .ok { b with head := inc b.head cap, count := b.count - 1 }) := by
  subst h
  unfold bufPop
  by_cases h1 : b.count = 0 <;> simp [h1]

theorem bufFront_cases {cap : Nat} {b : Buffer} {r : Except Stop Byte} (h : bufFront cap b = r) :
    (b.count = 0 ∧ r = .error (.raise .frontEmpty)) ∨
    (b.count ≠ 0 ∧ b.head < cap ∧ r = .ok (b.store.read b.head)) ∨
    (b.count ≠ 0 ∧ ¬ b.head < cap ∧ r = .error (.stop .noSlot)) := by
  subst h
  unfold bufFront
  by_cases h1 : b.count = 0
  · simp [h1]
  · by_cases h2 : b.head < cap <;> simp [h1, h2]

theorem bufTake_cases {cap : Nat} {b : Buffer} {r : Except Stop (Byte × Buffer)} (h : bufTake cap b = r) :
    (b.count = 0 ∧ r = .error (.raise .frontEmpty)) ∨
    (b.count ≠ 0 ∧ b.head < cap ∧
      r = .ok (b.store.read b.head, { b with head := inc b.head cap, count := b.count - 1 })) ∨
    (b.count ≠ 0 ∧ ¬ b.head < cap ∧ r = .error (.stop .noSlot)) := by
  subst h
  unfold bufTake
  obtain ⟨h0, h⟩ | ⟨h0, h1, h⟩ | ⟨h0, h1, h⟩ := bufFront_cases (cap := cap) (b := b) rfl
  · left; simp [h0, h]
  · right; left
    refine ⟨h0, h1, ?_⟩
    simp [h, bufPop, h0]
  · right; right; exact ⟨h0, h1, by simp [h]⟩

/-- R180: taking `n + 1` bytes is taking one and then `n`. -/
theorem bufTakeMany_succ (cap n : Nat) (b : Buffer) :
    bufTakeMany cap (n + 1) b =
      match bufTake cap b with
      | .error e => .error e
      | .ok (v, b') =>
        match bufTakeMany cap n b' with
        | .error e => .error e
        | .ok (vs, b'') => .ok (v :: vs, b'') := rfl

/-! Outcomes. -/

/-- Everything `onOk` can answer with a next state. -/
theorem onOk_next {α : Type} {r : Except Stop α} {s t : State} {k : α → Outcome} (h : onOk r s k = .next t) :
    (∃ a, r = .ok a ∧ k a = .next t) ∨ (∃ c, r = .error (.raise c) ∧ t = raiseFault c s) := by
  cases r with
  | ok a => exact .inl ⟨a, rfl, h⟩
  | error e =>
    cases e with
    | raise c => right; exact ⟨c, rfl, by simpa [onOk, Stop.outcome] using h.symm⟩
    | stop f => simp [onOk, Stop.outcome] at h

/-- Everything a UART.* command's admission can answer (R170). -/
theorem admitted_cases (k : AdmitKind) (s : State) (body : Outcome) :
    (uartAdmit k s.lc = none ∧ admitted k s body = body) ∨
    (∃ c, uartAdmit k s.lc = some c ∧ admitted k s body = .next (raiseFault c s)) := by
  unfold admitted
  cases h : uartAdmit k s.lc <;> simp

theorem admitted_ready {s : State} (h : s.lc = .ready) (body : Outcome) : admitted .use s body = body := by
  simp [admitted, h, uartAdmit]

/-- R170: only READY admits the commands that use the transport. -/
theorem uartAdmit_use_none {lc : Lifecycle} : uartAdmit .use lc = none ↔ lc = .ready := by
  cases lc <;> simp [uartAdmit]

theorem bufAdmit_cases (isClear : Bool) (b : BufId) (s : State) :
    (s.lc = .destroyed ∧ bufAdmit isClear b s = some .destroyed) ∨
    (s.lc ≠ .destroyed ∧ isClear = false ∧ (s.buf b).init = false ∧ bufAdmit isClear b s = some .bufUninit) ∨
    (s.lc ≠ .destroyed ∧ (isClear = true ∨ (s.buf b).init = true) ∧ bufAdmit isClear b s = none) := by
  unfold bufAdmit
  by_cases h : s.lc = .destroyed
  · simp [h]
  · cases isClear <;> cases h2 : (s.buf b).init <;> simp [h]

/-! The device. -/

theorem devWriteTx_cases {v : Byte} {s : State} {r : Except Stop State} (h : devWriteTx v s = r) :
    (s.dev.txq.length = s.inst.hwTxDepth ∧ r = .error (.raise .devProtocol)) ∨
    (s.dev.txq.length ≠ s.inst.hwTxDepth ∧ r = .ok { s with dev := { s.dev with txq := s.dev.txq ++ [v] } }) := by
  subst h
  unfold devWriteTx
  by_cases h1 : s.dev.txq.length = s.inst.hwTxDepth <;> simp [h1]

theorem devReadRx_cases {s : State} {r : Except Stop (Byte × State)} (h : devReadRx s = r) :
    (s.dev.rxq = [] ∧ r = .error (.raise .devProtocol)) ∨
    (∃ v q, s.dev.rxq = v :: q ∧ r = .ok (v, { s with dev := { s.dev with rxq := q } })) := by
  subst h
  unfold devReadRx
  cases h1 : s.dev.rxq <;> simp

@[simp] theorem devStatus_trdy (s : State) : (devStatus s).trdy = decide (s.dev.txq.length < s.inst.hwTxDepth) := rfl
@[simp] theorem devStatus_rrdy (s : State) : (devStatus s).rrdy = !s.dev.rxq.isEmpty := rfl

/-- Everything PutCore can answer after its status read (R178). -/
theorem putCore_full {v : Byte} {f : DevFlags} {s : State} (h : putCore v f s = .ok .full) :
    f.trdy = false ∧ ¬ s.tx.count < s.inst.txCap := by
  unfold putCore at h
  cases hf : f.trdy
  · by_cases h1 : s.tx.count < s.inst.txCap
    · simp only [hf, h1, Bool.false_and, Bool.false_eq_true, if_false, if_true] at h
      cases h2 : bufPush s.inst.txCap s.tx v <;> simp [h2, Except.map] at h
    · exact ⟨rfl, h1⟩
  · simp only [hf, Bool.true_and, if_true] at h
    split at h
    · cases h2 : devWriteTx v s <;> simp [h2, Except.map] at h
    · split at h
      · simp at h
      · split at h <;> simp at h

/-- R214: a device that is not ready to send ends SERVICE without an access. -/
theorem serviceRefill_idle {f : DevFlags} {s : State} (h : f.trdy = false) : serviceRefill f s = .done s := by
  simp [serviceRefill, h]

/-- R214: an empty `tx` on a ready device clears TXE. -/
theorem serviceRefill_empty {f : DevFlags} {s : State} (h : f.trdy = true) (h0 : s.tx.count = 0) :
    serviceRefill f s = .pause (setIer { s.ier with txe := false } s) .h4 := by
  simp [serviceRefill, h, h0]

/-- R214: a byte in `tx` goes to a ready device. -/
theorem serviceRefill_send {f : DevFlags} {s : State} (h : f.trdy = true) (h0 : s.tx.count ≠ 0)
    (hh : s.tx.head < s.inst.txCap) (hq : s.dev.txq.length ≠ s.inst.hwTxDepth) :
    serviceRefill f s =
      .pause
        { s with
          tx := { s.tx with head := inc s.tx.head s.inst.txCap, count := s.tx.count - 1 }
          dev := { s.dev with txq := s.dev.txq ++ [s.tx.store.read s.tx.head] } } .h4 := by
  simp [serviceRefill, h, h0, bufTake, bufFront, bufPop, hh, devWriteTx, hq]

/-- R214: what H3 does not touch, whatever it answers. -/
theorem serviceRefill_pause {f : DevFlags} {s t : State} {q : SvcPoint} (h : serviceRefill f s = .pause t q) :
    q = .h4 ∧ f.trdy = true ∧ t = { s with tx := t.tx, ier := t.ier, dev := { s.dev with txq := t.dev.txq, ctrl := t.dev.ctrl } } := by
  unfold serviceRefill at h
  cases hf : f.trdy
  · simp [hf] at h
  · simp only [hf, if_true] at h
    split at h
    · simp only [SvcResult.pause.injEq] at h
      obtain ⟨rfl, rfl⟩ := h
      exact ⟨rfl, rfl, rfl⟩
    · split at h
      · simp at h
      · split at h
        · simp at h
        · rename_i s1 hs1
          simp only [SvcResult.pause.injEq] at h
          obtain ⟨rfl, rfl⟩ := h
          obtain ⟨_, h2⟩ | ⟨_, h2⟩ := devWriteTx_cases hs1
          · simp at h2
          · obtain rfl := Except.ok.inj h2
            exact ⟨rfl, rfl, rfl⟩

end Sys2Proof.Machine
end

