-- ==== Sys2Proof/Laws/PerInstr.lean ====
section
/-!
SUPPORT. Statements for all instructions, one lemma per constructor. `ReservedZero`: the command word of every instruction
has its own row's MATCH bits and sets no reserved-zero bit (spec 30_encoding.md R91, R97).
-/

namespace Sys2Proof.Laws

/-- A field that reaches only bits outside a mask leaves a masked word alone. -/
theorem masked_or {p x m : Word} (hp : p &&& m = p) (hx : x &&& m = 0#32) : (p ||| x) &&& m = p := by
  have h : (p ||| x) &&& m = (p &&& m) ||| (x &&& m) := by
    apply BitVec.eq_of_getLsbD_eq
    intro i _
    simp only [BitVec.getLsbD_and, BitVec.getLsbD_or, Bool.and_or_distrib_right]
  rw [h, hp, hx, BitVec.or_zero]

theorem masked_or2 {p x y m : Word} (hp : p &&& m = p) (hx : x &&& m = 0#32) (hy : y &&& m = 0#32) :
    (p ||| x ||| y) &&& m = p := by
  rw [BitVec.or_assoc]
  refine masked_or hp ?_
  apply BitVec.eq_of_getLsbD_eq
  intro i hi
  have h1 := congrArg (fun w => w.getLsbD i) hx
  have h2 := congrArg (fun w => w.getLsbD i) hy
  simp only [BitVec.getLsbD_and, BitVec.getLsbD_or, BitVec.getLsbD_zero] at h1 h2 ⊢
  rw [Bool.and_or_distrib_right, h1, h2, Bool.or_false]

/-- A value below 2^k has no bit at k or above. -/
theorem and_mask_zero {k : Nat} {x m : Word} (hx : x.toNat < 2 ^ k) (hm : ∀ i : Fin k, m.getLsbD i = false) :
    x &&& m = 0#32 := by
  apply BitVec.eq_of_getLsbD_eq
  intro i hi
  rw [BitVec.getLsbD_and, BitVec.getLsbD_zero]
  by_cases h : i < k
  · simp [hm ⟨i, h⟩]
  · have : x.getLsbD i = false := by
      rw [BitVec.getLsbD, Nat.testBit_lt_two_pow]
      exact Nat.lt_of_lt_of_le hx (Nat.pow_le_pow_right (by decide) (by omega))
    simp [this]

theorem byteBits_lt (v : Byte) : (byteBits v).toNat < 2 ^ 8 := by
  have := v.isLt
  simp only [byteBits, BitVec.toNat_setWidth]
  omega

theorem countBits_lt (n : Nat) : (countBits n).toNat < 2 ^ 16 := by
  simp only [countBits, BitVec.toNat_setWidth, BitVec.toNat_ofNat]
  omega

theorem lineBits_lt (lc : LineReq) : (lineBits lc).toNat < 2 ^ 10 := by
  have hd : (lc.dbits.setWidth 32).toNat < 2 ^ 10 := by
    have := lc.dbits.isLt
    simp only [BitVec.toNat_setWidth]
    omega
  have hp : lc.par.bits.toNat < 2 ^ 10 := by cases lc.par <;> decide
  have hs : lc.stop.bits.toNat < 2 ^ 10 := by cases lc.stop <;> decide
  have hf : lc.flow.bits.toNat < 2 ^ 10 := by cases lc.flow <;> decide
  simp only [lineBits, BitVec.toNat_or]
  exact Nat.or_lt_two_pow (Nat.or_lt_two_pow (Nat.or_lt_two_pow hd hp) hs) hf

theorem instBits_masked {m : Word} (h : m.getLsbD 16 = false) (b : BufId) : instBits b &&& m = 0#32 := by
  cases b
  · simp [instBits]
  · apply BitVec.eq_of_getLsbD_eq
    intro i hi
    rw [BitVec.getLsbD_and, BitVec.getLsbD_zero]
    by_cases h16 : i = 16
    · rw [h16, h, Bool.and_false]
    · have : (instBits .rx).getLsbD i = false := by
        have : ∀ j : Fin 32, j.1 ≠ 16 → (instBits .rx).getLsbD j = false := by decide
        exact this ⟨i, hi⟩ h16
      simp [this]

/-- The command word keeps its row's MATCH under the row's MASK: no reserved-zero bit is set (R91). -/
def ReservedZero.Statement (i : Instr) : Prop :=
  ∃ r ∈ opRows, encode i &&& r.mask = r.pattern

theorem ReservedZero.bufClear (b : BufId) : ReservedZero.Statement (.bufClear b) :=
  ⟨⟨0x01000000#32, 0xFFFEFFFF#32, fun w => .bufClear (fieldInst w)⟩, by simp [opRows, bufRows, ctrRows, uartRows], masked_or (by decide) (instBits_masked (by decide) b)⟩

theorem ReservedZero.bufPush (b : BufId) (v : Byte) : ReservedZero.Statement (.bufPush b v) :=
  ⟨⟨0x02000000#32, 0xFFFEFF00#32, fun w => .bufPush (fieldInst w) (fieldByte w)⟩, by simp [opRows, bufRows, ctrRows, uartRows], masked_or2 (by decide) (instBits_masked (by decide) b) (and_mask_zero (byteBits_lt v) (by decide))⟩

theorem ReservedZero.bufPop (b : BufId) : ReservedZero.Statement (.bufPop b) :=
  ⟨⟨0x03000000#32, 0xFFFEFFFF#32, fun w => .bufPop (fieldInst w)⟩, by simp [opRows, bufRows, ctrRows, uartRows], masked_or (by decide) (instBits_masked (by decide) b)⟩

theorem ReservedZero.bufFront (b : BufId) : ReservedZero.Statement (.bufFront b) :=
  ⟨⟨0x04000000#32, 0xFFFEFFFF#32, fun w => .bufFront (fieldInst w)⟩, by simp [opRows, bufRows, ctrRows, uartRows], masked_or (by decide) (instBits_masked (by decide) b)⟩

theorem ReservedZero.bufEmpty (b : BufId) : ReservedZero.Statement (.bufEmpty b) :=
  ⟨⟨0x05000000#32, 0xFFFEFFFF#32, fun w => .bufEmpty (fieldInst w)⟩, by simp [opRows, bufRows, ctrRows, uartRows], masked_or (by decide) (instBits_masked (by decide) b)⟩

theorem ReservedZero.bufFull (b : BufId) : ReservedZero.Statement (.bufFull b) :=
  ⟨⟨0x06000000#32, 0xFFFEFFFF#32, fun w => .bufFull (fieldInst w)⟩, by simp [opRows, bufRows, ctrRows, uartRows], masked_or (by decide) (instBits_masked (by decide) b)⟩

theorem ReservedZero.bufSize (b : BufId) : ReservedZero.Statement (.bufSize b) :=
  ⟨⟨0x07000000#32, 0xFFFEFFFF#32, fun w => .bufSize (fieldInst w)⟩, by simp [opRows, bufRows, ctrRows, uartRows], masked_or (by decide) (instBits_masked (by decide) b)⟩

theorem ReservedZero.bufAvail (b : BufId) : ReservedZero.Statement (.bufAvail b) :=
  ⟨⟨0x08000000#32, 0xFFFEFFFF#32, fun w => .bufAvail (fieldInst w)⟩, by simp [opRows, bufRows, ctrRows, uartRows], masked_or (by decide) (instBits_masked (by decide) b)⟩

theorem ReservedZero.bufMaxsize (b : BufId) : ReservedZero.Statement (.bufMaxsize b) :=
  ⟨⟨0x09000000#32, 0xFFFEFFFF#32, fun w => .bufMaxsize (fieldInst w)⟩, by simp [opRows, bufRows, ctrRows, uartRows], masked_or (by decide) (instBits_masked (by decide) b)⟩

theorem ReservedZero.ctrNow : ReservedZero.Statement (.ctrNow) :=
  ⟨⟨0x10000000#32, 0xFFFFFFFF#32, fun _ => .ctrNow⟩, by simp [opRows, bufRows, ctrRows, uartRows], by decide⟩

theorem ReservedZero.ctrNs2cnt : ReservedZero.Statement (.ctrNs2cnt) :=
  ⟨⟨0x11000000#32, 0xFFFFFFFF#32, fun _ => .ctrNs2cnt⟩, by simp [opRows, bufRows, ctrRows, uartRows], by decide⟩

theorem ReservedZero.ctrUs2cnt : ReservedZero.Statement (.ctrUs2cnt) :=
  ⟨⟨0x12000000#32, 0xFFFFFFFF#32, fun _ => .ctrUs2cnt⟩, by simp [opRows, bufRows, ctrRows, uartRows], by decide⟩

theorem ReservedZero.ctrMs2cnt : ReservedZero.Statement (.ctrMs2cnt) :=
  ⟨⟨0x13000000#32, 0xFFFFFFFF#32, fun _ => .ctrMs2cnt⟩, by simp [opRows, bufRows, ctrRows, uartRows], by decide⟩

theorem ReservedZero.ctrDiff : ReservedZero.Statement (.ctrDiff) :=
  ⟨⟨0x14000000#32, 0xFFFFFFFF#32, fun _ => .ctrDiff⟩, by simp [opRows, bufRows, ctrRows, uartRows], by decide⟩

theorem ReservedZero.ctrTimeout : ReservedZero.Statement (.ctrTimeout) :=
  ⟨⟨0x15000000#32, 0xFFFFFFFF#32, fun _ => .ctrTimeout⟩, by simp [opRows, bufRows, ctrRows, uartRows], by decide⟩

theorem ReservedZero.ctrWaitns : ReservedZero.Statement (.ctrWaitns) :=
  ⟨⟨0x16000000#32, 0xFFFFFFFF#32, fun _ => .ctrWaitns⟩, by simp [opRows, bufRows, ctrRows, uartRows], by decide⟩

theorem ReservedZero.ctrWaitus : ReservedZero.Statement (.ctrWaitus) :=
  ⟨⟨0x17000000#32, 0xFFFFFFFF#32, fun _ => .ctrWaitus⟩, by simp [opRows, bufRows, ctrRows, uartRows], by decide⟩

theorem ReservedZero.ctrWaitms : ReservedZero.Statement (.ctrWaitms) :=
  ⟨⟨0x18000000#32, 0xFFFFFFFF#32, fun _ => .ctrWaitms⟩, by simp [opRows, bufRows, ctrRows, uartRows], by decide⟩

theorem ReservedZero.ctrMeasns : ReservedZero.Statement (.ctrMeasns) :=
  ⟨⟨0x19000000#32, 0xFFFFFFFF#32, fun _ => .ctrMeasns⟩, by simp [opRows, bufRows, ctrRows, uartRows], by decide⟩

theorem ReservedZero.ctrMeasus : ReservedZero.Statement (.ctrMeasus) :=
  ⟨⟨0x1A000000#32, 0xFFFFFFFF#32, fun _ => .ctrMeasus⟩, by simp [opRows, bufRows, ctrRows, uartRows], by decide⟩

theorem ReservedZero.ctrMeasms : ReservedZero.Statement (.ctrMeasms) :=
  ⟨⟨0x1B000000#32, 0xFFFFFFFF#32, fun _ => .ctrMeasms⟩, by simp [opRows, bufRows, ctrRows, uartRows], by decide⟩

theorem ReservedZero.uartSetup (lc : LineReq) : ReservedZero.Statement (.uartSetup lc) :=
  ⟨⟨0x20000000#32, 0xFFFFFC00#32, fun w => .uartSetup (fieldLine w)⟩, by simp [opRows, bufRows, ctrRows, uartRows], masked_or (by decide) (and_mask_zero (lineBits_lt lc) (by decide))⟩

theorem ReservedZero.uartGet : ReservedZero.Statement (.uartGet) :=
  ⟨⟨0x21000000#32, 0xFFFFFFFF#32, fun _ => .uartGet⟩, by simp [opRows, bufRows, ctrRows, uartRows], by decide⟩

theorem ReservedZero.uartPut (v : Byte) : ReservedZero.Statement (.uartPut v) :=
  ⟨⟨0x22000000#32, 0xFFFFFF00#32, fun w => .uartPut (fieldByte w)⟩, by simp [opRows, bufRows, ctrRows, uartRows], masked_or (by decide) (and_mask_zero (byteBits_lt v) (by decide))⟩

theorem ReservedZero.uartRead (n : Nat) : ReservedZero.Statement (.uartRead n) :=
  ⟨⟨0x23000000#32, 0xFFFF0000#32, fun w => .uartRead (fieldCount w)⟩, by simp [opRows, bufRows, ctrRows, uartRows], masked_or (by decide) (and_mask_zero (countBits_lt n) (by decide))⟩

theorem ReservedZero.uartWrite (n : Nat) : ReservedZero.Statement (.uartWrite n) :=
  ⟨⟨0x24000000#32, 0xFFFF0000#32, fun w => .uartWrite (fieldCount w)⟩, by simp [opRows, bufRows, ctrRows, uartRows], masked_or (by decide) (and_mask_zero (countBits_lt n) (by decide))⟩

theorem ReservedZero.uartClear : ReservedZero.Statement (.uartClear) :=
  ⟨⟨0x25000000#32, 0xFFFFFFFF#32, fun _ => .uartClear⟩, by simp [opRows, bufRows, ctrRows, uartRows], by decide⟩

theorem ReservedZero.uartFlush : ReservedZero.Statement (.uartFlush) :=
  ⟨⟨0x26000000#32, 0xFFFFFFFF#32, fun _ => .uartFlush⟩, by simp [opRows, bufRows, ctrRows, uartRows], by decide⟩

theorem ReservedZero.uartFrameperiod : ReservedZero.Statement (.uartFrameperiod) :=
  ⟨⟨0x27000000#32, 0xFFFFFFFF#32, fun _ => .uartFrameperiod⟩, by simp [opRows, bufRows, ctrRows, uartRows], by decide⟩

theorem ReservedZero.uartOverrun : ReservedZero.Statement (.uartOverrun) :=
  ⟨⟨0x28000000#32, 0xFFFFFFFF#32, fun _ => .uartOverrun⟩, by simp [opRows, bufRows, ctrRows, uartRows], by decide⟩

theorem ReservedZero.uartFraming : ReservedZero.Statement (.uartFraming) :=
  ⟨⟨0x29000000#32, 0xFFFFFFFF#32, fun _ => .uartFraming⟩, by simp [opRows, bufRows, ctrRows, uartRows], by decide⟩

theorem ReservedZero.uartParity : ReservedZero.Statement (.uartParity) :=
  ⟨⟨0x2A000000#32, 0xFFFFFFFF#32, fun _ => .uartParity⟩, by simp [opRows, bufRows, ctrRows, uartRows], by decide⟩

theorem ReservedZero.uartCreate (lc : LineReq) : ReservedZero.Statement (.uartCreate lc) :=
  ⟨⟨0x30000000#32, 0xFFFFFC00#32, fun w => .uartCreate (fieldLine w)⟩, by simp [opRows, bufRows, ctrRows, uartRows], masked_or (by decide) (and_mask_zero (lineBits_lt lc) (by decide))⟩

theorem ReservedZero.uartDestroy : ReservedZero.Statement (.uartDestroy) :=
  ⟨⟨0x31000000#32, 0xFFFFFFFF#32, fun _ => .uartDestroy⟩, by simp [opRows, bufRows, ctrRows, uartRows], by decide⟩

theorem ReservedZero.uartService : ReservedZero.Statement (.uartService) :=
  ⟨⟨0x32000000#32, 0xFFFFFFFF#32, fun _ => .uartService⟩, by simp [opRows, bufRows, ctrRows, uartRows], by decide⟩

end Sys2Proof.Laws
end

