-- ==== Sys2Proof/Laws/Setup.lean ====
section
/-!
SUPPORT. SetupCore (42_transport.md R174): the DIVISOR it programs is any function an instance may have (00_scope.md R11),
and what a SETUP does to `irqc` and to the device queues (70_reset_and_hazards.md R283).
-/

namespace Sys2Proof.Machine

/-! DIVISOR. -/

/-- A table made from a function gives the function's value for every pair it lists. -/
theorem divisorAt_map (f : Word → Word → Word) {l : List (Word × Word)} {clkHz bitrate : Word}
    (h : (clkHz, bitrate) ∈ l) : divisorAt (l.map fun k => ⟨k.1, k.2, f k.1 k.2⟩) clkHz bitrate = f clkHz bitrate := by
  induction l with
  | nil => simp at h
  | cons k l ih =>
    simp only [List.map_cons, divisorAt]
    split
    · rename_i e; rw [e.1, e.2]
    · rename_i e
      obtain rfl | h := List.mem_cons.mp h
      · exact absurd ⟨rfl, rfl⟩ e
      · exact ih h

/-- Some list holds every pair of words. -/
theorem exists_all_pairs : ∃ l : List (Word × Word), ∀ k, k ∈ l := by
  have : Finite Word := Finite.of_injective BitVec.toFin fun _ _ h => BitVec.eq_of_toFin_eq h
  exact ⟨(Set.finite_univ (α := Word × Word)).toFinset.toList, fun k => by simp⟩

/-- R11: every function (CLK_HZ, bitrate) to 32 bits is the DIVISOR of some instance, with the other parameters at will. -/
theorem divisorAt_represents (f : Word → Word → Word) :
    ∃ ds, ∀ clkHz bitrate, divisorAt ds clkHz bitrate = f clkHz bitrate := by
  obtain ⟨l, h⟩ := exists_all_pairs
  exact ⟨_, fun _ _ => divisorAt_map f (h _)⟩

/-- R11, U50 to U53: an admitted instance stays one under any DIVISOR, and any function is its DIVISOR under some table. -/
theorem divisor_represents (p : Params) (f : Word → Word → Word) :
    ∃ ds, ({ p with divisors := ds } : Params).wf = p.wf ∧
      ∀ bitrate, divisor { p with divisors := ds } bitrate = f p.clkHz bitrate := by
  obtain ⟨ds, h⟩ := divisorAt_represents f
  exact ⟨ds, rfl, fun _ => h _ _⟩

/-! SETUP. -/

/-- R174, R176: a SETUP with valid parameters, run alone, makes the transport READY with the handler installed and its source
enabled, programs this instance's divisor, and leaves the device queues as they are. -/
theorem execSetup_alone {lc : LineReq} {cfg : LineConfig} {s : State} (hs : AtStart s)
    (hl : s.lc = .ready ∨ s.lc = .setupFailed) (hv : validate s.inst s.port.opa lc = some cfg) :
    ∃ t, execSteps 3 (.uartSetup lc) s = .next t ∧ t.lc = .ready ∧
      t.irqc = (if s.inst.irq = none then s.irqc else ⟨true, true⟩) ∧
      t.dev = { s.dev with ctrl := ⟨true, false, true⟩, cfg := some (cfg, divisor s.inst cfg.bitrate) } := by
  have allowed : uartAdmit .configure s.lc = none := by obtain h | h := hl <;> rw [h] <;> rfl
  have first : exec (.uartSetup lc) s = setupConfigure (.uartSetup lc) cfg s := by
    have hp : s.fg.point = none := hs
    simp [exec, execUartSetup, setupCommand, hp, setupStart, admitted, allowed, hv]
  refine ⟨_, by simp only [execSteps, first]; rfl, rfl, ?_, rfl⟩
  cases h : s.inst.irq <;> simp [h, setIer, devConfigure, finish, finishWith]

/-- R283: re-initialization. On a transport that a successful CREATE has initialized (R281: the handler installed and its
source enabled, or no interrupt at all), a SETUP with valid parameters keeps the contents of `irqc` and of the device queues. -/
theorem execSetup_keeps_irqc_and_queues {lc : LineReq} {cfg : LineConfig} {s : State} (hs : AtStart s)
    (hl : s.lc = .ready ∨ s.lc = .setupFailed) (hv : validate s.inst s.port.opa lc = some cfg)
    (hi : s.inst.irq = none ∨ s.irqc = ⟨true, true⟩) :
    ∃ t, execSteps 3 (.uartSetup lc) s = .next t ∧ t.lc = .ready ∧ t.irqc = s.irqc ∧
      t.dev.rxq = s.dev.rxq ∧ t.dev.txq = s.dev.txq ∧ t.dev.shifter = s.dev.shifter := by
  obtain ⟨t, h, ready, irqc, dev⟩ := execSetup_alone hs hl hv
  refine ⟨t, h, ready, ?_, by rw [dev], by rw [dev], by rw [dev]⟩
  rw [irqc]
  obtain e | e := hi
  · rw [if_pos e]
  · rw [e, ite_self]

end Sys2Proof.Machine
end

