-- ==== Sys2Proof/Laws/Spec.lean ====
section
/-!
SUPPORT. The model's operations are the terms that Safety.lean spells out from the rules: one equation each, so that a proof
about a command unfolds neither.
-/

namespace Sys2Proof.Machine

/-- R144. -/
theorem ensureInit_eq (s : State) : ensureInit s = s.counterOn := by
  unfold ensureInit State.counterOn
  cases h : s.ctr.init <;> simp

/-- R73. -/
theorem csEnter_eq (s : State) : csEnter s = s.sectionOpen := by
  unfold csEnter State.sectionOpen
  cases h : s.inst.irq <;> simp

/-- R73. -/
theorem csExit_eq (s : State) : csExit s = s.sectionClosed := by
  unfold csExit State.sectionClosed
  cases h : s.inst.irq <;> simp

/-- R73: a critical section whose body does nothing. -/
theorem sectionClosed_sectionOpen (s : State) : s.sectionOpen.sectionClosed = s.sectionDone := by
  unfold State.sectionOpen State.sectionClosed State.sectionDone
  cases h : s.inst.irq <;> simp [h]

/-- R47. -/
theorem finishWith_eq (st : Status) (res : Word) (dout : List Byte) (s : State) :
    finishWith st res dout s = s.answered st.code res dout := rfl

/-- R47. -/
theorem finish_eq (st : Status) (res : Word) (s : State) : finish st res s = s.answered st.code res [] := rfl

/-- R252. -/
theorem raiseFault_eq (c : FaultCode) (s : State) : raiseFault c s = s.faulted c.code := rfl

/-- R28. -/
theorem setIer_eq (e : Enables) (s : State) : setIer e s = s.withEnables e := rfl

/-- R143, R154, R155. -/
theorem diff_eq (s : State) (base : Word) : diff s.inst.ctrDir base s.counterOn.ctr.cnt = s.elapsed base := by
  unfold diff State.elapsed
  cases s.inst.ctrDir <;> rfl

/-! What the terms leave alone. -/

@[simp] theorem counterOn_inst (s : State) : s.counterOn.inst = s.inst := by unfold State.counterOn; split <;> rfl
@[simp] theorem counterOn_port (s : State) : s.counterOn.port = s.port := by unfold State.counterOn; split <;> rfl
@[simp] theorem counterOn_fg (s : State) : s.counterOn.fg = s.fg := by unfold State.counterOn; split <;> rfl
@[simp] theorem counterOn_tx (s : State) : s.counterOn.tx = s.tx := by unfold State.counterOn; split <;> rfl
@[simp] theorem counterOn_fp (s : State) : s.counterOn.fp = s.fp := by unfold State.counterOn; split <;> rfl
@[simp] theorem sectionOpen_inst (s : State) : s.sectionOpen.inst = s.inst := by unfold State.sectionOpen; split <;> rfl
@[simp] theorem sectionOpen_tx (s : State) : s.sectionOpen.tx = s.tx := by unfold State.sectionOpen; split <;> rfl
@[simp] theorem sectionOpen_rx (s : State) : s.sectionOpen.rx = s.rx := by unfold State.sectionOpen; split <;> rfl
@[simp] theorem sectionOpen_dev (s : State) : s.sectionOpen.dev = s.dev := by unfold State.sectionOpen; split <;> rfl
@[simp] theorem sectionOpen_ier (s : State) : s.sectionOpen.ier = s.ier := by unfold State.sectionOpen; split <;> rfl
@[simp] theorem sectionOpen_port (s : State) : s.sectionOpen.port = s.port := by unfold State.sectionOpen; split <;> rfl
@[simp] theorem sectionOpen_fg (s : State) : s.sectionOpen.fg = s.fg := by unfold State.sectionOpen; split <;> rfl

/-- R28, R73: writing the enables and leaving the section commute. -/
theorem sectionClosed_withEnables (s : State) (e : Enables) :
    (s.withEnables e).sectionClosed = s.sectionClosed.withEnables e := by
  unfold State.sectionClosed State.withEnables
  cases h : s.inst.irq <;> simp

/-- R235: a write of the TX register where the status read that allowed it still holds. -/
theorem devWriteTx_ready {f : DevFlags} {s : State} (v : Byte) (h : TrdyHolds f s) (hf : f.trdy = true) :
    devWriteTx v s = .ok { s with dev := { s.dev with txq := s.dev.txq ++ [v] } } := by
  have h1 := h hf
  unfold devWriteTx
  rw [if_neg (by omega)]

/-! What a buffer holds. -/

/-- R22: the slots a live buffer uses, oldest first. -/
theorem contents_length (cap : Nat) (b : Buffer) : (b.contents cap).length = b.count := by simp [Buffer.contents]

/-- R124: the oldest byte comes first, and popping it leaves the rest. -/
theorem contents_pop {cap : Nat} {b : Buffer} (hb : b.Live cap) (h : b.count ≠ 0) :
    b.contents cap =
      b.store.read b.head :: ({ b with head := inc b.head cap, count := b.count - 1 } : Buffer).contents cap := by
  obtain ⟨n, hn⟩ := Nat.exists_eq_succ_of_ne_zero h
  have hh := hb.head_lt
  simp only [Buffer.contents, hn, Nat.succ_sub_one, List.range_succ_eq_map, List.map_cons, List.map_map, Nat.add_zero,
    Nat.mod_eq_of_lt hh, List.cons.injEq, true_and]
  refine List.map_congr_left fun k _ => ?_
  simp only [Function.comp, inc_eq_mod hh, Nat.mod_add_mod]
  congr 2
  omega

/-- R122: a byte pushed with room comes last. -/
theorem contents_push {cap : Nat} {b : Buffer} (hb : b.Live cap) (h : b.count ≠ cap) (v : Byte) :
    ({ b with store := b.store.write b.tail v, tail := inc b.tail cap, count := b.count + 1 } : Buffer).contents cap =
      b.contents cap ++ [v] := by
  have hc := hb.count_le
  have hh := hb.head_lt
  simp only [Buffer.contents, List.range_succ, List.map_append, List.map_cons, List.map_nil, memory_read_write, hb.tail_eq,
    if_true]
  congr 1
  refine List.map_congr_left fun k hk => ?_
  have hk := List.mem_range.1 hk
  rw [if_neg]
  intro e
  have h1 : (b.head + k) % cap = if b.head + k < cap then b.head + k else b.head + k - cap := by
    split
    · exact Nat.mod_eq_of_lt (by omega)
    · rw [Nat.mod_eq_sub_mod (by omega), Nat.mod_eq_of_lt (by omega)]
  have h2 : (b.head + b.count) % cap = if b.head + b.count < cap then b.head + b.count else b.head + b.count - cap := by
    split
    · exact Nat.mod_eq_of_lt (by omega)
    · rw [Nat.mod_eq_sub_mod (by omega), Nat.mod_eq_of_lt (by omega)]
  rw [h1, h2] at e
  split at e <;> split at e <;> omega

end Sys2Proof.Machine
end

