-- ==== Sys2Proof/Tests/Slice0.lean ====
section
/-!
SUPPORT. Small tests. Expected values come from the spec: the encodings of 30_encoding.md, the vectors of
95_test_vectors.md (named in each test) and the tables of the rules. Then, for every statement of
Certificates/Slice0/Obligations.lean that has hypotheses, a witness: concrete states and operands that meet them, one for
each clause, at boundary values.
-/

namespace Sys2Proof.Tests

open Sys2Proof.Machine

/-! ## Helpers -/

/-- The command port with operands, and a command presented. -/
def presentedPort (opa opb : Word) (din : List Byte) : Port :=
  ⟨0#32, opa, opb, din, 0x00#8, 0#32, [], true⟩

/-- A power-on state with a command presented and these operands. -/
def asked (p : Params) (opa opb : Word) : State :=
  { State.powerOn p with fg := .presented, port := presentedPort opa opb [] }

/-- A buffer that holds `vs` from slot 0 on. -/
def held (cap : Nat) (vs : List Byte) : Buffer :=
  ⟨(List.range vs.length).zip vs, 0, vs.length % cap, vs.length, true⟩

/-- 95_test_vectors.md section 0, "CREATE-ed", with a command presented. -/
def ready (p : Params) : State :=
  { State.powerOn p with
    tx := held 4 []
    rx := held 2 []
    ier := ⟨true, false, true⟩
    lcfg := ⟨115200#32, 8#4, .none, .one⟩
    fp := 87#32
    irqc := ⟨p.irq.isSome, p.irq.isSome⟩
    lc := .ready
    fg := .presented
    port := presentedPort 0#32 0#32 []
    dev := { Device.powerOn with ctrl := ⟨true, false, true⟩ } }

/-- The CREATE-ed state with these bytes in `tx` and in `rx`. -/
def holding (p : Params) (tx rx : List Byte) : State := { ready p with tx := held 4 tx, rx := held 2 rx }

/-- The state with FG at a point of a command. -/
def atPoint (i : Instr) (p : FgPoint) (s : State) : State := { s with fg := .running i p }

/-- The state with the scheduler's next turn. -/
def turn (e : Event) (s : State) : State := { s with sched := [e] }

/-- The state with no command presented. -/
def unasked (s : State) : State := { s with fg := .idle, port := { s.port with busy := false } }

/-- The state with a word presented. -/
def asking (w : Word) (s : State) : State := { s with port := { s.port with cmd := w } }

/-- What a command's end leaves in the port, and `fault`. -/
structure Answer where
  sts : BitVec 8
  res : Word
  dout : List Byte
  fault : BitVec 8
  deriving DecidableEq, Repr

/-- The answer a state holds. -/
def answer (t : State) : Answer := ⟨t.port.sts, t.port.res, t.port.dout, t.fault⟩

/-- A field of the state one step of a command gives. -/
def after {α : Type} (i : Instr) (s : State) (f : State → α) : Option α := (nextOf (exec i s)).map f

/-- A field of the state `k` steps of a command give. -/
def afterSteps {α : Type} (k : Nat) (i : Instr) (s : State) (f : State → α) : Option α := (nextOf (execSteps k i s)).map f

/-- A field of the state one step of the machine gives. -/
def afterTurn {α : Type} (s : State) (f : State → α) : Option α := (nextOf (step s)).map f

/-- 8 data bits, no parity, one stop bit, no flow control (LC = 0x008). -/
def req8n1 : LineReq := ⟨8#4, .none, .one, .none⟩

/-- The flags of a device that is ready to send and holds nothing. -/
def idleFlags : DevFlags := ⟨false, true, true, true, false, false, false⟩

/-- The flags of a device that is not ready to send. -/
def busyFlags : DevFlags := ⟨false, false, false, false, false, false, false⟩

/-! ## Well-formedness: one ill-formed term for each check -/

/-- R94: n is 16 bits wide. -/
theorem test_wf_count_too_large :
    Instr.wf (.uartRead 65536) = false ∧ Instr.wf (.uartWrite 65536) = false ∧
    Instr.wf (.uartRead 65535) = true ∧ Instr.wf (.uartWrite 65535) = true := by decide

/-- U50. -/
theorem test_wf_capacity_out_of_range :
    Params.wf { Params.p0 with txCap := 0 } = false ∧ Params.wf { Params.p0 with txCap := 65536 } = false ∧
    Params.wf { Params.p0 with rxCap := 0 } = false ∧ Params.wf { Params.p0 with rxCap := 65536 } = false ∧
    Params.wf { Params.p0 with txCap := 65535, rxCap := 1 } = true := by decide

/-- U51, and R11's CLK_HZ ≥ 1. -/
theorem test_wf_rate_out_of_range :
    Params.wf { Params.p0 with ctrHz := 0 } = false ∧ Params.wf { Params.p0 with ctrHz := 2 ^ 32 } = false ∧
    Params.wf { Params.p0 with clkHz := 0#32 } = false := by decide

/-- U52. -/
theorem test_wf_depth_zero :
    Params.wf { Params.p0 with hwTxDepth := 0 } = false ∧ Params.wf { Params.p0 with hwRxDepth := 0 } = false := by
  decide

/-- U53, R65. -/
theorem test_wf_misaligned :
    Params.wf { Params.p0 with base := 2#32 } = false ∧
    Params.wf { Params.p0 with devMap := { Params.p0.devMap with offTx := 6#32 } } = false := by decide

/-- U53, R232. -/
theorem test_wf_overlap :
    Params.wf { Params.p0 with devMap := { Params.p0.devMap with offTx := 0#32 } } = false ∧
    Params.wf { Params.p0 with devMap := { Params.p0.devMap with trdy := 7 } } = false ∧
    Params.wf { Params.p0 with devMap := { Params.p0.devMap with txe := [7] } } = false ∧
    Params.wf { Params.p0 with devMap := { Params.p0.devMap with rrdy := 32 } } = false ∧
    Params.wf { Params.p0 with devMap := { Params.p0.devMap with txe := [32] } } = false := by decide

/-- R232, R237: an enable has a bit, and RESET_RX_FIFO has RST_RX. -/
theorem test_wf_missing_bit :
    Params.wf { Params.p0 with devMap := { Params.p0.devMap with rxe := [] } } = false ∧
    Params.wf { Params.p0 with devMap := { Params.p0.devMap with txe := [] } } = false ∧
    Params.wf { Params.p0 with devMap := { Params.p0.devMap with erre := [] } } = false ∧
    Params.wf { Params.p0 with errClear := .resetRxFifo } = false ∧
    Params.wf { Params.p0 with errClear := .resetRxFifo, devMap := { Params.p0.devMap with rstRx := some 12 } } = true := by
  decide

/-! ## Decoding: words written out from the encoding tables -/

/-- R92, R93, R97: the BUF.* words, SEL in [23:16] and the byte in [7:0]. -/
theorem test_decode_buf :
    decode 0x01000000#32 = .ok (.bufClear .tx) ∧ decode 0x01010000#32 = .ok (.bufClear .rx) ∧
    decode 0x020000FF#32 = .ok (.bufPush .tx 0xFF#8) ∧ decode 0x02010041#32 = .ok (.bufPush .rx 0x41#8) ∧
    decode 0x03010000#32 = .ok (.bufPop .rx) ∧ decode 0x04000000#32 = .ok (.bufFront .tx) ∧
    decode 0x05010000#32 = .ok (.bufEmpty .rx) ∧ decode 0x06000000#32 = .ok (.bufFull .tx) ∧
    decode 0x07010000#32 = .ok (.bufSize .rx) ∧ decode 0x08000000#32 = .ok (.bufAvail .tx) ∧
    decode 0x09010000#32 = .ok (.bufMaxsize .rx) := by decide

/-- R97: the CTR.* words. -/
theorem test_decode_ctr :
    decode 0x10000000#32 = .ok .ctrNow ∧ decode 0x11000000#32 = .ok .ctrNs2cnt ∧
    decode 0x12000000#32 = .ok .ctrUs2cnt ∧ decode 0x13000000#32 = .ok .ctrMs2cnt ∧
    decode 0x14000000#32 = .ok .ctrDiff ∧ decode 0x15000000#32 = .ok .ctrTimeout ∧
    decode 0x16000000#32 = .ok .ctrWaitns ∧ decode 0x17000000#32 = .ok .ctrWaitus ∧
    decode 0x18000000#32 = .ok .ctrWaitms ∧ decode 0x19000000#32 = .ok .ctrMeasns ∧
    decode 0x1A000000#32 = .ok .ctrMeasus ∧ decode 0x1B000000#32 = .ok .ctrMeasms := by decide

/-- R93 to R95, R97, R106: the UART.* words. LC = 0x2DF is FLOW 2, STOP 3, PAR 1, DBITS 15. -/
theorem test_decode_uart :
    decode 0x20000058#32 = .ok (.uartSetup ⟨8#4, .even, .two, .none⟩) ∧
    decode 0x200002DF#32 = .ok (.uartSetup ⟨15#4, .even, .reserved3, .sw⟩) ∧
    decode 0x21000000#32 = .ok .uartGet ∧ decode 0x22000048#32 = .ok (.uartPut 0x48#8) ∧
    decode 0x23000002#32 = .ok (.uartRead 2) ∧ decode 0x2400FFFF#32 = .ok (.uartWrite 65535) ∧
    decode 0x25000000#32 = .ok .uartClear ∧ decode 0x26000000#32 = .ok .uartFlush ∧
    decode 0x27000000#32 = .ok .uartFrameperiod ∧ decode 0x28000000#32 = .ok .uartOverrun ∧
    decode 0x29000000#32 = .ok .uartFraming ∧ decode 0x2A000000#32 = .ok .uartParity ∧
    decode 0x30000328#32 = .ok (.uartCreate ⟨8#4, .odd, .one, .reserved⟩) ∧
    decode 0x31000000#32 = .ok .uartDestroy ∧ decode 0x32000000#32 = .ok .uartService := by decide

/-- R99: an unassigned opcode at each end of each range. -/
theorem test_decode_unassigned :
    decode 0x00000000#32 = .error .unassignedOpcode ∧
    decode 0x0A000000#32 = .error .unassignedOpcode ∧
    decode 0x0F000000#32 = .error .unassignedOpcode ∧
    decode 0x1C000000#32 = .error .unassignedOpcode ∧
    decode 0x1F000000#32 = .error .unassignedOpcode ∧
    decode 0x2B000000#32 = .error .unassignedOpcode ∧
    decode 0x2F000000#32 = .error .unassignedOpcode ∧
    decode 0x33000000#32 = .error .unassignedOpcode ∧
    decode 0xFF000000#32 = .error .unassignedOpcode := by decide

/-- R91, R99, R106, T-BUF-10, T-BUF-11, T-CTR-21, T-TR-11, T-TR-37: a reserved-zero bit. -/
theorem test_decode_reserved_bit :
    decode 0x05020000#32 = .error .reservedBitSet ∧
    decode 0x02000141#32 = .error .reservedBitSet ∧
    decode 0x10000001#32 = .error .reservedBitSet ∧
    decode 0x30000408#32 = .error .reservedBitSet ∧
    decode 0x21000001#32 = .error .reservedBitSet ∧
    decode 0x20000408#32 = .error .reservedBitSet ∧
    decode 0x24010000#32 = .error .reservedBitSet := by decide

/-- R105, T-TR-26, T-TR-27: the length of DIN. -/
theorem test_decode_din :
    decodeCommand 0x24000002#32 [0x61#8] = .error .dinLength ∧
    decodeCommand 0x21000000#32 [0x00#8] = .error .dinLength ∧
    decodeCommand 0x24000001#32 [0x61#8] = .ok (.uartWrite 1) := by decide

/-- R106: the worked encodings, from the encoder. -/
theorem test_encode :
    encode (.bufPush .rx 0x41#8) = 0x02010041#32 ∧ encode (.uartSetup ⟨8#4, .even, .two, .none⟩) = 0x20000058#32 ∧
    encode (.uartSetup ⟨8#4, .none, .one, .hw⟩) = 0x20000108#32 ∧ encode (.uartPut 0x48#8) = 0x22000048#32 ∧
    encode (.uartWrite 3) = 0x24000003#32 := by decide

/-- The words of all 35 rows with every field 0. -/
def rowWords : List Nat :=
  [0x01, 0x02, 0x03, 0x04, 0x05, 0x06, 0x07, 0x08, 0x09, 0x10, 0x11, 0x12, 0x13, 0x14, 0x15, 0x16, 0x17, 0x18, 0x19,
    0x1A, 0x1B, 0x20, 0x21, 0x22, 0x23, 0x24, 0x25, 0x26, 0x27, 0x28, 0x29, 0x2A, 0x30, 0x31, 0x32].map (· * 2 ^ 24)

/-- Every row decodes, and runs as the first instruction after reset. -/
theorem test_rows_run_from_reset :
    rowWords.all (fun w => (decodeTableWord 32 w).isSome && (afterTurn (State.reset.withFetchWord 32 w) id).isSome)
      = true := by decide

/-- A number of more than 32 bits is no command word. -/
theorem test_table_word_range :
    decodeTableWord 32 0x02000141 = none ∧ decodeTableWord 64 0x110000000 = none ∧
    decodeTableWord 32 0x24000003 = some (.uartWrite 3) := by decide

/-! ## Power-on and the step -/

/-- R280, T-DEV-1. -/
theorem test_power_on :
    State.reset.lc = .unconstructed ∧ State.reset.tx.init = false ∧ State.reset.port.busy = false ∧
    devStatus State.reset = ⟨false, true, true, true, false, false, false⟩ := by decide

/-- R48, U47. -/
theorem test_host_busy :
    afterTurn (turn (.present 0#32 0#32 0#32 []) (ready .p0)) id |>.isNone := by decide

/-- U50 to U53: an instance the spec does not admit takes no step. -/
theorem test_illegal_instance :
    (afterTurn (turn .tick (State.powerOn { Params.p0 with txCap := 0 })) id).isNone := by decide

/-- R98, T-TR-37: the word is checked before the lifecycle. -/
theorem test_illegal_word_before_lifecycle :
    afterTurn (turn .fg (asking 0x21000001#32 (asked .p0 0#32 0#32))) answer = some ⟨0xFF#8, 0#32, [], 0x01#8⟩ := by
  decide

/-- R72(a): FG waits for the ISR. -/
theorem test_isr_excludes_fg :
    afterTurn (turn .fg { ready .p1 with isr := .active .h0 }) (fun t => (t.isr, t.fg)) =
      some (.active .h0, .presented) := by decide

/-- T-IRQ-3: delivery on a received byte. -/
theorem test_interrupt_delivered :
    afterTurn (turn .isr (unasked { ready .p1 with dev := { (ready .p1).dev with rxq := [0x31#8] } })) (·.isr) =
      some (.active .h0) := by decide

/-- T-IRQ-1: no delivery before the handler is installed. -/
theorem test_interrupt_not_registered :
    afterTurn (turn .isr { State.powerOn .p1 with dev := { Device.powerOn with rxq := [0x31#8] } }) (·.isr) =
      some .inactive := by decide

/-- T-DEV-2, R241. -/
theorem test_tx_load :
    afterTurn (turn .txLoad { State.reset with dev := { Device.powerOn with txq := [0x41#8] } })
      (fun t => (t.dev.shifter, t.dev.txq, devStatus t)) =
      some (some 0x41#8, [], ⟨false, true, true, false, false, false, false⟩) := by decide

/-- T-DEV-2, R242. -/
theorem test_tx_done :
    afterTurn (turn .txDone { State.reset with dev := { Device.powerOn with shifter := some 0x41#8 } })
      (fun t => (t.dev.lineOut, (devStatus t).tmt)) = some ([0x41#8], true) := by decide

/-- T-DEV-3, R240: the hardware queue is full. -/
theorem test_rx_arrive_full :
    afterTurn (turn (.rxArrive 0x62#8 true true) { State.reset with dev := { Device.powerOn with rxq := [0x61#8] } })
      (fun t => (t.dev.rxq, t.dev.roe, t.dev.pe, t.dev.fe, t.dev.lineIn)) =
      some ([0x61#8], true, false, false, [⟨0x62#8, true, true⟩]) := by decide

/-- R240: the byte is queued with its error flags. -/
theorem test_rx_arrive :
    afterTurn (turn (.rxArrive 0x55#8 true false) State.reset) (fun t => (t.dev.rxq, t.dev.pe, t.dev.fe)) =
      some ([0x55#8], true, false) := by decide

/-- T-CTR-23. -/
theorem test_tick_up :
    afterTurn (turn .tick { State.reset with ctr := ⟨true, 0xFFFFFFFF#32⟩ }) (·.ctr.cnt) = some 0#32 := by decide

/-- T-CTR-24. -/
theorem test_tick_down :
    afterTurn (turn .tick { State.powerOn { Params.p0 with ctrDir := .down } with ctr := ⟨true, 0#32⟩ }) (·.ctr.cnt) =
      some 0xFFFFFFFF#32 := by decide

/-- T-DEV-4 to T-DEV-6. -/
theorem test_irq_level :
    irqLevel { ready .p0 with dev := { (ready .p0).dev with rxq := [0x61#8] } } = true ∧
    irqLevel { State.reset with dev := { Device.powerOn with ctrl := ⟨false, true, false⟩, txq := [0x41#8] } } = false ∧
    irqLevel { State.reset with dev := { Device.powerOn with pe := true } } = false := by decide

/-! ## BUF.* -/

/-- T-BUF-7: the slots are not erased. -/
theorem test_buf_clear :
    after (.bufClear .rx) { State.reset with rx := ⟨[(0, 0x12#8), (1, 0x11#8)], 0, 1, 1, true⟩ } (·.rx) =
      some ⟨[(0, 0x12#8), (1, 0x11#8)], 0, 0, 0, true⟩ := by decide

/-- W1 step 9: the slot at `tail` is overwritten, and `tail` wraps on. -/
theorem test_buf_push :
    after (.bufPush .tx 0x45#8)
      { State.reset with tx := ⟨[(0, 0x41#8), (1, 0x42#8), (2, 0x43#8), (3, 0x44#8)], 1, 0, 3, true⟩ } (·.tx) =
      some ⟨[(0, 0x45#8), (1, 0x42#8), (2, 0x43#8), (3, 0x44#8)], 1, 1, 4, true⟩ := by decide

/-- T-BUF-3: the fault leaves the critical section open. -/
theorem test_buf_push_full :
    after (.bufPush .rx 0x03#8) { State.reset with rx := held 2 [0x01#8, 0x02#8] }
      (fun t => (answer t, t.inCS, t.rx.contents 2)) =
      some (⟨0xFF#8, 0#32, [], 0x06#8⟩, true, [0x01#8, 0x02#8]) := by decide

/-- T-BUF-6: `head` wraps to 0. -/
theorem test_buf_pop :
    after (.bufPop .rx) { State.reset with rx := ⟨[(0, 0x12#8), (1, 0x11#8)], 1, 1, 2, true⟩ }
      (fun t => (t.rx.head, t.rx.count, t.rx.store)) = some (0, 1, [(0, 0x12#8), (1, 0x11#8)]) := by decide

/-- T-BUF-4. -/
theorem test_buf_pop_empty :
    after (.bufPop .tx) (ready .p0) answer = some ⟨0xFF#8, 0#32, [], 0x07#8⟩ := by decide

/-- T-BUF-8. -/
theorem test_buf_front :
    after (.bufFront .tx) (holding .p0 [0x41#8] []) (fun t => (answer t, t.tx.count)) =
      some (⟨0x00#8, 0x41#32, [], 0x00#8⟩, 1) := by decide

/-- T-BUF-5. -/
theorem test_buf_front_empty :
    after (.bufFront .tx) (ready .p0) answer = some ⟨0xFF#8, 0#32, [], 0x08#8⟩ := by decide

/-- T-BUF-1, T-BUF-2. -/
theorem test_buf_queries :
    after (.bufEmpty .rx) (ready .p0) answer = some ⟨0x00#8, 1#32, [], 0x00#8⟩ ∧
    after (.bufFull .rx) (ready .p0) answer = some ⟨0x00#8, 0#32, [], 0x00#8⟩ ∧
    after (.bufSize .rx) (ready .p0) answer = some ⟨0x00#8, 0#32, [], 0x00#8⟩ ∧
    after (.bufAvail .rx) (ready .p0) answer = some ⟨0x00#8, 2#32, [], 0x00#8⟩ ∧
    after (.bufMaxsize .rx) (ready .p0) answer = some ⟨0x00#8, 2#32, [], 0x00#8⟩ ∧
    after (.bufPush .rx 0x00#8) State.reset (fun t => (answer t, t.inCS)) =
      some (⟨0xFF#8, 0#32, [], 0x05#8⟩, false) := by decide

/-- W1 steps 6 and 10, T-BUF-9, T-BUF-13. -/
theorem test_buf_queries_held :
    after (.bufFull .tx) (holding .p0 [1#8, 2#8, 3#8, 4#8] []) answer = some ⟨0x00#8, 1#32, [], 0x00#8⟩ ∧
    after (.bufSize .tx) (holding .p0 [1#8, 2#8, 3#8, 4#8] []) answer = some ⟨0x00#8, 4#32, [], 0x00#8⟩ ∧
    after (.bufAvail .tx) (holding .p0 [1#8] []) answer = some ⟨0x00#8, 3#32, [], 0x00#8⟩ ∧
    after (.bufEmpty .tx) (holding .p0 [1#8] []) answer = some ⟨0x00#8, 0#32, [], 0x00#8⟩ ∧
    after (.bufSize .tx) { ready .p0 with lc := .destroyed } answer = some ⟨0xFF#8, 0#32, [], 0x04#8⟩ := by decide

/-! ## CTR.* -/

/-- R149, with the counter initialized. -/
theorem test_ctr_now :
    after .ctrNow { State.reset with ctr := ⟨true, 0xFFFFF000#32⟩ } answer = some ⟨0x00#8, 0xFFFFF000#32, [], 0x00#8⟩ := by
  decide

/-- T-CTR-1: the first use initializes. -/
theorem test_ctr_now_first : after .ctrNow State.reset (fun t => (t.ctr.init, t.draws)) = some (true, 1) := by decide

/-- T-CTR-2, T-CTR-3. -/
theorem test_ctr_ns2cnt :
    after .ctrNs2cnt (asked .p0 1000#32 0#32) (fun t => (answer t, t.ctr.init)) =
      some (⟨0x00#8, 51#32, [], 0x00#8⟩, false) ∧
    after .ctrNs2cnt (asked .p0 19#32 0#32) (·.port.res) = some 1#32 ∧
    after .ctrNs2cnt (asked .p0 20#32 0#32) (·.port.res) = some 2#32 := by decide

/-- T-CTR-4, T-CTR-5. -/
theorem test_ctr_ns2cnt_limit :
    after .ctrNs2cnt (asked .p0 82595524#32 0#32) (·.port.res) = some 4194304#32 ∧
    after .ctrNs2cnt (asked .p0 82595525#32 0#32) answer = some ⟨0xFF#8, 0#32, [], 0x09#8⟩ := by decide

/-- T-CTR-6, T-CTR-7. -/
theorem test_ctr_us2cnt :
    after .ctrUs2cnt (asked .p0 87#32 0#32) (·.port.res) = some 4350#32 ∧
    after .ctrUs2cnt (asked .p0 85899345#32 0#32) (·.port.res) = some 4294967250#32 ∧
    after .ctrUs2cnt (asked .p0 85899346#32 0#32) answer = some ⟨0xFF#8, 0#32, [], 0x09#8⟩ := by decide

/-- T-CTR-8, T-CTR-9. -/
theorem test_ctr_ms2cnt :
    after .ctrMs2cnt (asked .p0 85899#32 0#32) (·.port.res) = some 4294950000#32 ∧
    after .ctrMs2cnt (asked .p0 85900#32 0#32) answer = some ⟨0xFF#8, 0#32, [], 0x09#8⟩ := by decide

/-- W3. -/
theorem test_ctr_diff :
    after .ctrDiff (asked .p0 0xFFFFFFF0#32 0x10#32) (·.port.res) = some 0x20#32 ∧
    after .ctrDiff (asked .p0 5#32 4#32) (·.port.res) = some 0xFFFFFFFF#32 ∧
    after .ctrDiff (asked { Params.p0 with ctrDir := .down } 0x10#32 0xFFFFFFF0#32) (·.port.res) = some 0x20#32 := by
  decide

/-- W4. -/
theorem test_ctr_timeout :
    after .ctrTimeout { asked .p0 1000#32 5#32 with ctr := ⟨true, 1004#32⟩ } (·.port.res) = some 0#32 ∧
    after .ctrTimeout { asked .p0 1000#32 5#32 with ctr := ⟨true, 1005#32⟩ } (·.port.res) = some 1#32 ∧
    after .ctrTimeout { asked .p0 0xFFFFFFFE#32 5#32 with ctr := ⟨true, 3#32⟩ } (·.port.res) = some 1#32 ∧
    after .ctrTimeout { asked .p0 0xFFFFFFFE#32 6#32 with ctr := ⟨true, 3#32⟩ } (·.port.res) = some 0#32 := by decide

/-- T-CTR-16. -/
theorem test_ctr_timeout_down :
    after .ctrTimeout { asked { Params.p0 with ctrDir := .down } 100#32 5#32 with ctr := ⟨true, 95#32⟩ } (·.port.res) =
      some 1#32 := by decide

/-- T-CTR-17: the base, then a sample one count short and the sample that is due. -/
theorem test_ctr_waitus :
    after .ctrWaitus { asked .p0 87#32 0#32 with ctr := ⟨true, 0x1000#32⟩ } (·.fg) =
      some (.running .ctrWaitus (.waitSample 4350#32 0x1000#32)) ∧
    after .ctrWaitus
      (atPoint .ctrWaitus (.waitSample 4350#32 0x1000#32) { asked .p0 87#32 0#32 with ctr := ⟨true, 0x20FD#32⟩ })
      (·.port.busy) = some true ∧
    after .ctrWaitus
      (atPoint .ctrWaitus (.waitSample 4350#32 0x1000#32) { asked .p0 87#32 0#32 with ctr := ⟨true, 0x20FE#32⟩ })
      answer = some ⟨0x00#8, 0#32, [], 0x00#8⟩ := by decide

/-- T-CTR-18. -/
theorem test_ctr_waitns :
    after .ctrWaitns (atPoint .ctrWaitns (.waitSample 0#32 7#32) { asked .p0 0#32 0#32 with ctr := ⟨true, 7#32⟩ })
      (fun t => (answer t, t.fg)) = some (⟨0x00#8, 0#32, [], 0x00#8⟩, .idle) := by decide

/-- T-CTR-19: the counter is initialized before the conversion faults. -/
theorem test_ctr_waitms :
    after .ctrWaitms (asked .p0 85900#32 0#32) (fun t => (t.fault, t.ctr.init)) = some (0x09#8, true) := by decide

/-- T-CTR-11 to T-CTR-13. -/
theorem test_ctr_measns :
    after .ctrMeasns (asked .p0 0#32 1#32) (·.port.res) = some 20#32 ∧
    after .ctrMeasns (asked .p0 0#32 214748364#32) (·.port.res) = some 4294967280#32 ∧
    after .ctrMeasns (asked .p0 0#32 214748365#32) answer = some ⟨0xFF#8, 0#32, [], 0x0A#8⟩ := by decide

/-- T-CTR-14. -/
theorem test_ctr_measus :
    after .ctrMeasus (asked .p0 0#32 4351#32) (·.port.res) = some 88#32 ∧
    after .ctrMeasus (asked .p0 0xFFFFF000#32 0xFE#32) (·.port.res) = some 87#32 ∧
    after .ctrMeasus (asked .p0 0#32 0xFFFFFFFF#32) (·.port.res) = some 85899346#32 := by decide

/-- T-CTR-15. -/
theorem test_ctr_measms :
    after .ctrMeasms (asked .p0 0#32 50000#32) (·.port.res) = some 1#32 ∧
    after .ctrMeasms (asked .p0 0#32 50001#32) (·.port.res) = some 2#32 := by decide

/-! ## UART.*: construction and setup -/

/-- T-TR-1, first step: validation and DevConfigure. -/
theorem test_uart_create_first :
    after (.uartCreate req8n1) (asked .p1 115200#32 0#32) (fun t => (t.fg, t.inCS, t.lc)) =
      some (.running (.uartCreate req8n1) (.setupCtrl ⟨115200#32, 8#4, .none, .one⟩), true, .unconstructed) := by decide

/-- R11, R174: DevConfigure programs the instance's own DIVISOR at its own CLK_HZ; an entry for another clock or another bitrate
is not read. -/
theorem test_instance_divisor :
    let p (v : Word) : Params :=
      { Params.p0 with divisors := [⟨1#32, 115200#32, 9#32⟩, ⟨50000000#32, 9600#32, 8#32⟩, ⟨50000000#32, 115200#32, v⟩] }
    after (.uartCreate req8n1) (asked (p 433#32) 115200#32 0#32) (·.dev.cfg) =
      some (some (⟨115200#32, 8#4, .none, .one⟩, 433#32)) ∧
    after (.uartCreate req8n1) (asked (p 434#32) 115200#32 0#32) (·.dev.cfg) =
      some (some (⟨115200#32, 8#4, .none, .one⟩, 434#32)) ∧ (p 433#32).wf = true := by decide

/-- T-TR-1, T-IRQ-2, the last two steps. -/
theorem test_uart_create_last :
    afterSteps 2 (.uartCreate req8n1)
      (atPoint (.uartCreate req8n1) (.setupCtrl ⟨115200#32, 8#4, .none, .one⟩) (asked .p1 115200#32 0#32))
      (fun t => (answer t, t.lc, t.fp, t.dev.ctrl, t.irqc)) =
      some (⟨0x00#8, 0#32, [], 0x00#8⟩, .ready, 87#32, ⟨true, false, true⟩, ⟨true, true⟩) := by decide

/-- T-TR-14: a rejected setup writes `lc` alone. -/
theorem test_uart_setup_rejected :
    after (.uartSetup ⟨8#4, .none, .one, .hw⟩)
      { holding .p0 [] [0x31#8] with port := presentedPort 115200#32 0#32 [], sticky := ⟨true, false, false⟩ }
      (fun t => (answer t, t.lc, t.rx.contents 2, t.sticky.bits, t.fp)) =
      some (⟨0x01#8, 0#32, [], 0x00#8⟩, .setupFailed, [0x31#8], 0b001#3, 87#32) := by decide

/-- T-TR-6, T-TR-13: SETUP discards the buffers' bytes and gives 9600, 8, E, 2 its frame period. R174: the transport is READY
and the critical section left only after the last access. -/
theorem test_uart_setup_last :
    afterSteps 2 (.uartSetup ⟨8#4, .even, .two, .none⟩)
      (atPoint (.uartSetup ⟨8#4, .even, .two, .none⟩) (.setupCtrl ⟨9600#32, 8#4, .even, .two⟩)
        { holding .p0 [0x42#8] [0x31#8] with sticky := ⟨false, false, true⟩ })
      (fun t => (t.fp, t.tx.count, t.rx.count, t.sticky.bits, t.lc)) = some (1250#32, 0, 0, 0#3, .ready) ∧
    after (.uartSetup ⟨8#4, .even, .two, .none⟩)
      (atPoint (.uartSetup ⟨8#4, .even, .two, .none⟩) (.setupCtrl ⟨9600#32, 8#4, .even, .two⟩)
        { ready .p0 with lc := .setupFailed, inCS := true })
      (fun t => (t.lc, t.inCS, t.port.busy, t.ier.bits)) = some (.setupFailed, true, true, 0b101#3) := by decide

/-- T-TR-7 to T-TR-10, T-TR-12, R173: validation, and R172's rounding. -/
theorem test_validation :
    validate .p0 115200#32 ⟨8#4, .reserved, .one, .none⟩ = none ∧
    validate .p0 115200#32 ⟨8#4, .none, .reserved2, .none⟩ = none ∧
    validate .p0 0#32 req8n1 = none ∧ validate .p0 12345#32 req8n1 = none ∧
    validate .p0 115200#32 ⟨8#4, .none, .one, .sw⟩ = none ∧
    validate .p0 9600#32 req8n1 = some ⟨9600#32, 8#4, .none, .one⟩ ∧
    framePeriod ⟨9600#32, 8#4, .none, .one⟩ = 1042#32 ∧ framePeriod ⟨115200#32, 8#4, .none, .one⟩ = 87#32 := by decide

/-- T-TR-2, T-TR-3, T-TR-5, T-TR-34, T-TR-35: the admission table. -/
theorem test_uart_admission :
    after (.uartCreate req8n1) (ready .p0) (·.fault) = some 0x0C#8 ∧
    after .uartGet State.reset (·.fault) = some 0x02#8 ∧
    after .uartGet { ready .p0 with lc := .setupFailed } (·.fault) = some 0x03#8 ∧
    after (.uartCreate req8n1) { ready .p0 with lc := .destroyed } (·.fault) = some 0x04#8 ∧
    after .uartDestroy State.reset (·.fault) = some 0x02#8 := by decide

/-- T-TR-33: the device is disabled, and `lc` is DESTROYED. -/
theorem test_uart_destroy :
    afterSteps 2 .uartDestroy { ready .p1 with dev := { (ready .p1).dev with roe := true, rxq := [0x31#8] } }
      (fun t => (answer t, t.lc, t.dev.ctrl, t.dev.roe, t.dev.rxq)) =
      some (⟨0x00#8, 0#32, [], 0x00#8⟩, .destroyed, ⟨false, false, false⟩, false, [0x31#8]) := by decide

/-! ## UART.*: transfers -/

/-- T-TR-15, T-TR-16. -/
theorem test_uart_get :
    after .uartGet (ready .p0) answer = some ⟨0x02#8, 0#32, [], 0x00#8⟩ ∧
    after .uartGet (holding .p0 [] [0x31#8, 0x32#8]) (fun t => (answer t, t.rx.contents 2)) =
      some (⟨0x00#8, 0x31#32, [], 0x00#8⟩, [0x32#8]) := by decide

/-- T-TR-17 to T-TR-19. -/
theorem test_uart_read :
    after (.uartRead 0) (holding .p0 [] [0x31#8, 0x32#8]) (fun t => (answer t, t.rx.count)) =
      some (⟨0x00#8, 0#32, [], 0x00#8⟩, 2) ∧
    after (.uartRead 3) (holding .p0 [] [0x31#8, 0x32#8]) (fun t => (answer t, t.rx.count)) =
      some (⟨0x02#8, 0#32, [], 0x00#8⟩, 2) ∧
    after (.uartRead 2) (holding .p0 [] [0x31#8, 0x32#8]) (fun t => (answer t, t.rx.count)) =
      some (⟨0x00#8, 0#32, [0x31#8, 0x32#8], 0x00#8⟩, 0) := by decide

/-- W6: the fast path never touches `tx`. -/
theorem test_uart_put_fast :
    after (.uartPut 0x48#8) (atPoint (.uartPut 0x48#8) (.putGot idleFlags) (ready .p0))
      (fun t => (t.dev.txq, t.tx.count, t.fg)) = some ([0x48#8], 0, .running (.uartPut 0x48#8) .putCtrl) := by decide

/-- T-TR-21: rotate. T-TR-20: queue. T-TR-22: full. -/
theorem test_uart_put :
    after (.uartPut 0x43#8) (atPoint (.uartPut 0x43#8) (.putGot idleFlags) (holding .p0 [0x42#8] []))
      (fun t => (t.dev.txq, t.tx.contents 4)) = some ([0x42#8], [0x43#8]) ∧
    afterSteps 2 (.uartPut 0x42#8) (atPoint (.uartPut 0x42#8) (.putGot busyFlags) (ready .p0))
      (fun t => (answer t, t.tx.contents 4, t.ier.bits)) =
      some (⟨0x00#8, 0#32, [], 0x00#8⟩, [0x42#8], 0b111#3) ∧
    after (.uartPut 0x45#8) (atPoint (.uartPut 0x45#8) (.putGot busyFlags) (holding .p0 [1#8, 2#8, 3#8, 4#8] []))
      (fun t => (answer t, t.tx.count, t.inCS)) = some (⟨0x03#8, 0#32, [], 0x00#8⟩, 4, false) := by decide

/-- T-TR-24, T-TR-25. -/
theorem test_uart_write_check :
    after (.uartWrite 3) (holding .p0 [1#8, 2#8] []) (fun t => (answer t, t.tx.count)) =
      some (⟨0x03#8, 0#32, [], 0x00#8⟩, 2) ∧
    after (.uartWrite 0) (ready .p0) (fun t => (answer t, t.ier.bits)) =
      some (⟨0x00#8, 0#32, [], 0x00#8⟩, 0b101#3) := by decide

/-- T-TR-23: the second and third bytes find the device busy and are queued. -/
theorem test_uart_write_bytes :
    after (.uartWrite 3) (atPoint (.uartWrite 3) (.writeGot [0x61#8, 0x62#8, 0x63#8] idleFlags) (ready .p0))
      (fun t => (t.dev.txq, t.fg)) =
      some ([0x61#8], .running (.uartWrite 3) (.writeNext [0x62#8, 0x63#8])) ∧
    afterSteps 2 (.uartWrite 3)
      (atPoint (.uartWrite 3) (.writeGot [0x63#8] busyFlags) (holding .p0 [0x62#8] []))
      (fun t => (answer t, t.tx.contents 4, t.ier.bits)) =
      some (⟨0x00#8, 0#32, [], 0x00#8⟩, [0x62#8, 0x63#8], 0b111#3) := by decide

/-- T-TR-28: TXE is kept. -/
theorem test_uart_clear :
    after .uartClear { holding .p0 [0x42#8] [] with sticky := ⟨false, true, false⟩, ier := ⟨true, true, true⟩ }
      (fun t => (t.tx.count, t.sticky.bits, t.ier.bits)) = some (0, 0#3, 0b111#3) := by decide

/-- T-TR-32, T-TR-12. -/
theorem test_uart_queries :
    after .uartOverrun { ready .p0 with sticky := ⟨true, false, true⟩ } (·.port.res) = some 1#32 ∧
    after .uartFraming { ready .p0 with sticky := ⟨true, false, true⟩ } (·.port.res) = some 0#32 ∧
    after .uartParity { ready .p0 with sticky := ⟨true, false, true⟩ } (fun t => (t.port.res, t.sticky.bits)) =
      some (1#32, 0b101#3) ∧
    after .uartFrameperiod (ready .p0) answer = some ⟨0x00#8, 87#32, [], 0x00#8⟩ := by decide

/-! ## UART.FLUSH -/

/-- W7: the prelude and D0; D2 at 4000 counts and at 5000. -/
theorem test_uart_flush_drain :
    after .uartFlush { ready .p0 with ctr := ⟨true, 0x10000#32⟩ } (·.fg) =
      some (.running .uartFlush (.flushDrain 4350#32 8700#32 0x10000#32)) ∧
    after .uartFlush
      (atPoint .uartFlush (.flushBound 4350#32 8700#32 0#32) { holding .p0 [0x42#8] [] with ctr := ⟨true, 4000#32⟩ })
      (·.fg) = some (.running .uartFlush (.flushDrain 4350#32 8700#32 0#32)) ∧
    after .uartFlush
      (atPoint .uartFlush (.flushBound 4350#32 8700#32 0#32) { holding .p0 [0x42#8] [] with ctr := ⟨true, 5000#32⟩ })
      (fun t => (answer t, t.tx.count)) = some (⟨0x04#8, 0#32, [], 0x00#8⟩, 1) := by decide

/-- T-TR-30: idle on NIOS. T-FL-5: MICROBLAZE waits on. T-FL-3: the idle bound. -/
theorem test_uart_flush_idle :
    afterSteps 2 .uartFlush
      (atPoint .uartFlush (.flushTest 4350#32 8700#32 0#32 idleFlags) { ready .p0 with ctr := ⟨true, 9#32⟩ })
      (fun t => (answer t, t.ier.bits)) = some (⟨0x00#8, 0#32, [], 0x00#8⟩, 0b101#3) ∧
    after .uartFlush
      (atPoint .uartFlush (.flushTest 4350#32 8700#32 0#32 idleFlags)
        { ready { Params.p0 with platform := .microblaze } with ctr := ⟨true, 9#32⟩ })
      (·.fg) = some (.running .uartFlush (.flushWait 4350#32 9#32)) ∧
    after .uartFlush
      (atPoint .uartFlush (.flushTest 4350#32 8700#32 0#32 busyFlags) { ready .p0 with ctr := ⟨true, 9000#32⟩ })
      (·.port.sts) = some 0x04#8 := by decide

/-- T-FL-4: the idle bound does not fit. -/
theorem test_uart_flush_overflow :
    after .uartFlush { ready { Params.p0 with hwTxDepth := 16 } with fp := 10000000#32 }
      (fun t => (t.fault, t.ctr.init)) = some (0x09#8, true) := by decide

/-! ## SERVICE -/

/-- T-SV-2: the errors are latched, and the device's latches cleared. T-SV-3: the FIFO reset loses the byte. -/
theorem test_service_errors :
    serviceStep (.h1 ⟨true, true, true, true, true, false, false⟩)
      { ready .p0 with dev := { (ready .p0).dev with rxq := [0x55#8], pe := true } } =
      .pause { ready .p0 with dev := { (ready .p0).dev with rxq := [0x55#8] }, sticky := ⟨true, false, false⟩ }
        (.h2 ⟨true, true, true, true, true, false, false⟩) ∧
    serviceStep (.h1 ⟨true, true, true, true, true, false, false⟩)
      { ready { Params.p0 with errClear := .resetRxFifo } with
        dev := { (ready .p0).dev with rxq := [0x55#8], pe := true } } =
      .pause { ready { Params.p0 with errClear := .resetRxFifo } with sticky := ⟨true, false, false⟩ }
        (.h2 ⟨true, true, true, true, true, false, false⟩) := by decide

/-- W5 step 7: `rx` is full, so the byte is dropped and the overrun bit set; then H4. -/
theorem test_service_overrun :
    afterSteps 2 .uartService
      (atPoint .uartService (.svc (.h2push ⟨true, true, true, true, false, false, false⟩ 0 0x33#8))
        (holding .p0 [] [0x31#8, 0x32#8]))
      (fun t => (answer t, t.rx.contents 2, t.sticky.bits, t.ier.bits)) =
      some (⟨0x00#8, 0#32, [], 0x00#8⟩, [0x31#8, 0x32#8], 0b100#3, 0b101#3) := by decide

/-- T-SV-5, T-SV-6, T-TR-29: the refill on a ready and on a busy device. -/
theorem test_service_refill :
    after .uartService (atPoint .uartService (.svc (.h3 idleFlags)) (holding .p0 [0x42#8, 0x43#8] []))
      (fun t => (t.dev.txq, t.tx.contents 4, t.fg)) = some ([0x42#8], [0x43#8], .running .uartService (.svc .h4)) ∧
    after .uartService
      (atPoint .uartService (.svc (.h3 busyFlags)) { ready .p0 with ier := ⟨true, true, true⟩ }) (·.ier.bits) =
      some 0b111#3 ∧
    after .uartService
      (atPoint .uartService (.svc (.h3 idleFlags)) { ready .p0 with ier := ⟨true, true, true⟩ }) (·.ier.bits) =
      some 0b101#3 := by decide

/-- T-SV-7: the drain stops at HW_RX_DEPTH bytes. -/
theorem test_service_drain_bound :
    serviceStep (.h2push ⟨true, false, true, true, false, false, false⟩ 1 0x02#8)
      { holding { Params.p0 with hwRxDepth := 2 } [] [0x01#8] with dev := { (ready .p0).dev with rxq := [0x03#8] } } =
      .done
        { holding { Params.p0 with hwRxDepth := 2 } [] [0x01#8, 0x02#8] with
          dev := { (ready .p0).dev with rxq := [0x03#8] } } := by decide

/-! ## The storage -/

/-- R23, U21: a slot nothing has written holds 0x00 (log entry 5), and writing 0x00 leaves equal data. -/
theorem test_memory_unlisted :
    Memory.read [] 3 = 0x00#8 ∧ Memory.write [(0, 1#8), (2, 3#8)] 2 0x00#8 = [(0, 1#8)] ∧
    Memory.write [(0, 1#8), (2, 3#8)] 1 2#8 = [(0, 1#8), (1, 2#8), (2, 3#8)] ∧
    Memory.wf [(0, 1#8), (1, 0#8)] = false ∧ Memory.wf [(1, 1#8), (1, 2#8)] = false := by decide

/-! ## The register view -/

/-- R238: a write of the divisor register changes the divisor of a configured device alone. -/
theorem test_register_divisor :
    (match memWrite (regAddr State.reset Params.p0.devMap.offDiv) 433#32
        { State.reset with dev := { Device.powerOn with cfg := some (⟨9600#32, 8#4, .none, .one⟩, 5207#32) } } with
      | .ok t => t.dev.cfg
      | .error _ => none) = some (⟨9600#32, 8#4, .none, .one⟩, 433#32) := by decide

/-- R246's Nios layout: RRDY 7, TRDY 6, TMT 5, ROE 3, FE 1, PE 0; IRRDY 7, ITRDY 6, IROE 3, IFE 1, IPE 0. -/
theorem test_register_words :
    statusWord .niosInformative ⟨true, true, false, false, true, false, false⟩ 0#32 = 0xC1#32 ∧
    ctrlWord .niosInformative ⟨true, false, true⟩ = 0x8B#32 ∧
    decodeCtrl .niosInformative 0x40#32 = ⟨false, true, false⟩ := by decide

/-! ## Witnesses: the hypotheses of the statements of Certificates/Slice0/Obligations.lean, clause by clause -/

/-- A CREATE-ed transport under P1 with one byte in each buffer and WRITE's three bytes presented. -/
def wReady : State :=
  { holding .p1 [0x41#8] [0x31#8] with
    ier := ⟨true, true, true⟩
    dev := { Device.powerOn with ctrl := ⟨true, true, true⟩ }
    port := ⟨0x24000003#32, 0#32, 0#32, [1#8, 2#8, 3#8], 0x00#8, 0#32, [], true⟩ }

theorem held_tx_ok : (held 4 [0x41#8]).Ok 4 :=
  ⟨by decide, by decide, fun _ => ⟨by decide, by decide, by decide, by decide⟩⟩

theorem held_rx_ok : (held 2 [0x31#8]).Ok 2 :=
  ⟨by decide, by decide, fun _ => ⟨by decide, by decide, by decide, by decide⟩⟩

/-- StepKeepsInv, StepNeverStops, WriteAcceptsAllBytesInOrder, ServiceIsBounded: the invariant on a transport in use. -/
theorem test_witness_inv_ready : Inv wReady where
  inst := by decide
  tx := held_tx_ok
  rx := held_rx_ok
  rxq := by decide
  txq := by decide
  ier := by decide
  init := by decide
  busy := by decide
  section_ := by decide
  halted := by decide
  code := by decide
  status := by decide
  fg := by simp [FgOk, wReady, holding, ready]
  isr := by simp [IsrOk, wReady, holding, ready, State.powerOn]
  irq :=
    { absent := by decide, outside := by decide, inside := by decide
      kept := fun _ _ h => absurd h (by decide)
      ready := by decide, unready := fun h => absurd h (by decide) }

/-- The same transport while the ISR refills, under the free schedule's turn of the ISR. -/
def wIsr : State :=
  { unasked wReady with isr := .active (.h3 idleFlags), sched := [.isr] }

/-- IsrTurnsLeaveForegroundAlone, ServiceNeverFaults: the invariant while the ISR is active. -/
theorem test_witness_inv_isr : Inv wIsr where
  inst := by decide
  tx := held_tx_ok
  rx := held_rx_ok
  rxq := by decide
  txq := by decide
  ier := by decide
  init := by decide
  busy := by decide
  section_ := by decide
  halted := by decide
  code := by decide
  status := by decide
  fg := by simp [FgOk, wIsr, unasked]
  isr := ⟨fun _ => by decide, by decide, by decide, by decide⟩
  irq :=
    { absent := by decide, outside := by decide, inside := by decide
      kept := fun _ _ h => absurd h (by decide)
      ready := by decide, unready := fun h => absurd h (by decide) }

/-- The same transport inside the command UART.SERVICE. -/
def wSvc : State :=
  { atPoint .uartService (.svc (.h3 idleFlags)) wReady with
    inCS := true, saved := true, irqc := ⟨true, false⟩, sched := [.fg] }

/-- ServiceNeverFaults: the invariant inside the command UART.SERVICE. -/
theorem test_witness_inv_service : Inv wSvc where
  inst := by decide
  tx := held_tx_ok
  rx := held_rx_ok
  rxq := by decide
  txq := by decide
  ier := by decide
  init := by decide
  busy := by decide
  section_ := by decide
  halted := by decide
  code := by decide
  status := by decide
  fg := ⟨by decide, by decide, fun _ => by decide⟩
  isr := by simp [IsrOk, wSvc, atPoint, wReady, holding, ready, State.powerOn]
  irq :=
    { absent := by decide, outside := by decide, inside := by decide
      kept := fun _ _ _ => Or.inr (by decide)
      ready := by decide, unready := fun h => absurd h (by decide) }

/-- A block halted by a fault: the invariant holds, and DEV goes on. -/
def wHalted : State := { unasked wReady with fault := 0x0B#8, sched := [.txDone] }

/-- FaultHaltsTheBlock, ServiceNeverFaults: the hypotheses in a halted block. -/
theorem test_witness_inv_halted : Inv wHalted where
  inst := by decide
  tx := held_tx_ok
  rx := held_rx_ok
  rxq := by decide
  txq := by decide
  ier := by decide
  init := by decide
  busy := by decide
  section_ := by decide
  halted := by decide
  code := by decide
  status := by decide
  fg := by simp [FgOk, wHalted, unasked]
  isr := by simp [IsrOk, wHalted, unasked, wReady, holding, ready, State.powerOn]
  irq :=
    { absent := by decide, outside := by decide, inside := by decide
      kept := fun h => absurd h (by decide)
      ready := by decide, unready := fun h => absurd h (by decide) }

/-- The steps the invariant statements are about answer a next state in those states. -/
theorem test_witness_steps :
    (afterTurn (turn .fg { wReady with port := { wReady.port with cmd := 0x24000003#32 } }) id).isSome = true ∧
    (afterTurn wIsr id).isSome = true ∧ (afterTurn wSvc id).isSome = true ∧
    afterTurn wHalted (·.fault) = some 0x0B#8 := by decide

/-- PowerOnMeetsInv: admitted instances. -/
theorem test_witness_instances : Params.p0.wf = true ∧ Params.p1.wf = true := by decide

/-- OpcodeTableDecodes: a word of each kind of row, with and without a reserved-zero bit. -/
theorem test_witness_opcode :
    opcodeOf 0x01010000#32 = opcodeOf 0x01000000#32 ∧ 0x01010000#32 &&& 0xFFFEFFFF#32 = 0x01000000#32 ∧
    opcodeOf 0x01020000#32 = opcodeOf 0x01000000#32 ∧ 0x01020000#32 &&& 0xFFFEFFFF#32 ≠ 0x01000000#32 ∧
    (opcodeOf 0x33000000#32).toNat = 0x33 := by decide

/-- DecodeOfEncode, DecodedWordIsTheCommandWord: a well-formed instruction at its field's limit, and its word. -/
theorem test_witness_encode :
    Instr.wf (.uartWrite 65535) = true ∧ decode 0x2400FFFF#32 = .ok (.uartWrite 65535) ∧
    encode (.uartWrite 65535) = 0x2400FFFF#32 := by decide

/-- StepRunsTheDecodedCommand: FG's first step and a later one. -/
theorem test_witness_step_runs :
    (let s := turn .fg wReady
     s.inst.wf = true ∧ s.sched = .fg :: [] ∧ s.fault = 0#8 ∧ s.isr = .inactive ∧ s.fg = .presented ∧
       decodeCommand s.port.cmd s.port.din = .ok (.uartWrite 3)) ∧
    (let s := turn .fg (atPoint (.uartPut 1#8) .putCtrl wReady)
     s.inst.wf = true ∧ s.sched = .fg :: [] ∧ s.fault = 0#8 ∧ s.isr = .inactive ∧
       s.fg = .running (.uartPut 1#8) .putCtrl) := by decide

/-- IllegalCommandFaults: each reason a command is illegal for. -/
theorem test_witness_illegal :
    (let s := turn .fg (asking 0x00000000#32 (ready .p0))
     s.inst.wf = true ∧ s.sched = .fg :: [] ∧ s.fault = 0#8 ∧ s.isr = .inactive ∧ s.fg = .presented ∧
       decodeCommand s.port.cmd s.port.din = .error .unassignedOpcode) ∧
    decodeCommand (asking 0x21000001#32 (ready .p0)).port.cmd [] = .error .reservedBitSet ∧
    decodeCommand (asking 0x24000001#32 (ready .p0)).port.cmd [] = .error .dinLength := by decide

/-- HostPresentsOneCommand: an idle port, a busy one, and a halted block. -/
theorem test_witness_host :
    (State.reset.inst.wf = true ∧ State.reset.port.busy = false ∧ State.reset.fault = 0#8) ∧
    ((ready .p0).inst.wf = true ∧ (ready .p0).port.busy = true) ∧
    (wHalted.inst.wf = true ∧ wHalted.port.busy = false ∧ wHalted.fault ≠ 0#8) := by decide

/-- InterruptDelivery: all the conditions, and one of them false. -/
theorem test_witness_delivery :
    (let s := turn .isr (unasked wReady)
     s.inst.wf = true ∧ s.isr = .inactive ∧ s.sched = .isr :: [] ∧ s.inst.irq ≠ none ∧ s.irqc.registered = true ∧
       s.irqc.enabled = true ∧ irqLevel s = true ∧ s.inCS = false ∧ s.fault = 0#8) ∧
    (let s := turn .isr (ready .p0)
     s.inst.wf = true ∧ s.isr = .inactive ∧ s.sched = .isr :: [] ∧ s.inst.irq = none) := by decide

/-- IsrTurnsLeaveForegroundAlone: FG's turn while the ISR is active, and the ISR's, at a step that pauses and at the last. -/
theorem test_witness_isr_turns :
    (turn .fg wIsr).inst.wf = true ∧ wIsr.isr ≠ .inactive ∧ wIsr.sched = .isr :: [] ∧
    (nextTurn wIsr).1 = .isr ∧ wSvc.fg = .running .uartService (.svc (.h3 idleFlags)) ∧
    wIsr.inst.wf = true ∧ wIsr.fault = 0#8 ∧ wIsr.isr = .active (.h3 idleFlags) ∧
    (match serviceStep (.h3 idleFlags) { wIsr with sched := [] } with
      | .pause t q => some (q, t.dev.txq)
      | _ => none) = some (.h4, [0x41#8]) ∧
    serviceStep .h4 { wIsr with sched := [] } = .done { wIsr with sched := [] } := by decide

/-- DeviceEvents: each event enabled and not. -/
theorem test_witness_device :
    (let s := { ready .p0 with dev := { Device.powerOn with rxq := [1#8], txq := [2#8], shifter := some 3#8 } }
     s.inst.wf = true ∧ s.dev.rxq.length = s.inst.hwRxDepth ∧ s.dev.shifter = some 3#8) ∧
    (let s := { ready .p0 with dev := { Device.powerOn with txq := [2#8] } }
     s.dev.rxq.length ≠ s.inst.hwRxDepth ∧ s.dev.shifter = none ∧ s.dev.txq = 2#8 :: []) ∧
    (State.reset.dev.shifter = none ∧ State.reset.dev.txq = []) := by decide

/-- CounterTicks: both directions, and before initialization. -/
theorem test_witness_ticks :
    (let s := { ready .p0 with ctr := ⟨true, 0xFFFFFFFF#32⟩ }
     s.ctr.init = true ∧ s.inst.ctrDir = .up ∧ s.inst.wf = true) ∧
    (let s := { ready { Params.p0 with ctrDir := .down } with ctr := ⟨true, 0#32⟩ }
     s.ctr.init = true ∧ s.inst.ctrDir = .down ∧ s.inst.wf = true) ∧
    State.reset.ctr.init = false := by decide

/-- BufClearEmpties, BufPushAppends, BufPopDropsTheOldest, BufFrontReadsTheOldest, BufQueriesAnswer: each clause, with the
buffer full, one short of full with `tail` in the last slot, empty, never cleared, and destroyed. -/
theorem test_witness_buf :
    ({ ready .p0 with lc := .destroyed } : State).lc = .destroyed ∧
    (State.reset.lc ≠ .destroyed ∧ (State.reset.buf .tx).init = false) ∧
    (let s := holding .p0 [] [1#8, 2#8]
     s.lc ≠ .destroyed ∧ (s.buf .rx).init = true ∧ (s.buf .rx).count = s.cap .rx) ∧
    (let s := holding .p0 [] [1#8]
     s.lc ≠ .destroyed ∧ (s.buf .rx).init = true ∧ (s.buf .rx).count ≠ s.cap .rx ∧ (s.buf .rx).tail < s.cap .rx ∧
       (s.buf .rx).tail + 1 = s.cap .rx ∧ (s.buf .rx).count ≠ 0 ∧ (s.buf .rx).head < s.cap .rx ∧
       (s.buf .rx).store.read (s.buf .rx).head = 1#8) ∧
    ((ready .p0).lc ≠ .destroyed ∧ ((ready .p0).buf .tx).init = true ∧ ((ready .p0).buf .tx).count = 0) := by decide

/-- BufferPrimitivesKeepInvariants, FifoLaw, ServiceKeepsArrivalOrder, ReadIsAllOrNothing, PutSteps: a live buffer with one
byte, one that is full, and an empty one of capacity 1. -/
theorem test_witness_live :
    (held 4 [0x41#8]).Live 4 ∧ (held 2 [1#8, 2#8]).Live 2 ∧ (held 1 []).Live 1 :=
  ⟨⟨by decide, by decide, by decide, by decide⟩, ⟨by decide, by decide, by decide, by decide⟩,
    ⟨by decide, by decide, by decide, by decide⟩⟩

/-- BufferPrimitivesKeepInvariants, FifoLaw: a push and a pop that complete, and a sequence that wraps. -/
theorem test_witness_primitives :
    (match runBuffer 2 [some 1#8, some 2#8, none, some 3#8] (bufClear .powerOn) with
      | .ok b => b.contents 2
      | .error _ => []) = [2#8, 3#8] ∧
    (match bufPush 2 (held 2 [1#8]) 2#8 with | .ok b => b.count | .error _ => 0) = 2 ∧
    (match bufPop 2 (held 2 [1#8]) with | .ok b => b.head | .error _ => 0) = 1 := by decide

/-- ConversionsNeverUndershoot: the largest duration of each unit that does not fault. -/
theorem test_witness_undershoot :
    (match convNs 50000000 82595524#32 with | .ok c => some c | .error _ => none) = some 4194304#32 ∧
    (match convUs 50000000 85899345#32 with | .ok c => some c | .error _ => none) = some 4294967250#32 ∧
    (match convMs 50000000 85899#32 with | .ok c => some c | .error _ => none) = some 4294950000#32 ∧
    after .ctrNs2cnt (asked .p0 82595524#32 0#32) (·.port.sts) = some 0x00#8 ∧
    after .ctrUs2cnt (asked .p0 85899345#32 0#32) (·.port.sts) = some 0x00#8 ∧
    after .ctrMs2cnt (asked .p0 85899#32 0#32) (·.port.sts) = some 0x00#8 := by decide

/-- CtrConversions, CtrWaits: the largest duration that fits, and the next one. -/
theorem test_witness_conversions :
    durationProduct .ctrNs2cnt 50000000 82595524 ≤ 2 ^ 32 - 1 ∧ durationProduct .ctrNs2cnt 50000000 82595525 > 2 ^ 32 - 1 ∧
    durationProduct .ctrWaitus 50000000 85899345 ≤ 2 ^ 32 - 1 ∧ durationProduct .ctrWaitus 50000000 85899346 > 2 ^ 32 - 1 ∧
    durationProduct .ctrMs2cnt 50000000 85899 ≤ 2 ^ 32 - 1 ∧ durationProduct .ctrMs2cnt 50000000 85900 > 2 ^ 32 - 1 ∧
    (asked .p0 82595524#32 0#32).inst.ctrHz = 50000000 ∧ (asked .p0 82595524#32 0#32).fg.point = none := by decide

/-- CtrMeasurements: the largest duration that fits, and the next one. -/
theorem test_witness_measurements :
    (214748364 * 1000000000 + 50000000 - 1) / 50000000 ≤ 2 ^ 32 - 1 ∧
    (214748365 * 1000000000 + 50000000 - 1) / 50000000 > 2 ^ 32 - 1 := by decide

/-- CtrWaits: a sample exactly due, and one a count short. -/
theorem test_witness_waits :
    (let s := atPoint .ctrWaitus (.waitSample 4350#32 0x1000#32) { ready .p0 with ctr := ⟨true, 0x20FE#32⟩ }
     s.fg = .running .ctrWaitus (.waitSample 4350#32 0x1000#32) ∧
       (4350#32 : Word).toNat ≤ (s.elapsed 0x1000#32).toNat) ∧
    (let s := atPoint .ctrWaitus (.waitSample 4350#32 0x1000#32) { ready .p0 with ctr := ⟨true, 0x20FD#32⟩ }
     (s.elapsed 0x1000#32).toNat < (4350#32 : Word).toNat) := by decide

/-- TimeoutTurnsTrueWhenDue, DiffIsWrapInsensitive: a counter that wraps on its way, before it is due and when it is. -/
theorem test_witness_timeout :
    (let s := { asked .p0 0xFFFFFFFE#32 5#32 with ctr := ⟨true, 2#32⟩ }
     s.ctr = ⟨true, (ctrNext s.inst.ctrDir)^[4] s.port.opa⟩ ∧ 4 < s.port.opb.toNat) ∧
    (let s := { asked .p0 0xFFFFFFFE#32 5#32 with ctr := ⟨true, 3#32⟩ }
     s.ctr = ⟨true, (ctrNext s.inst.ctrDir)^[5] s.port.opa⟩ ∧ s.port.opb.toNat ≤ 5) := by decide

/-- LifecycleAdmission: a fault entry of each kind. -/
theorem test_witness_admission :
    AtStart (asked .p0 0#32 0#32) ∧ lifecycleFault .uartGet .unconstructed = some 0x02#8 ∧
    lifecycleFault .uartGet .setupFailed = some 0x03#8 ∧ lifecycleFault .uartDestroy .destroyed = some 0x04#8 ∧
    lifecycleFault (.uartCreate req8n1) .ready = some 0x0C#8 := by
  refine ⟨rfl, ?_⟩
  decide

/-- AcceptedConfigurationSetsUp: SETUP with a valid configuration on a READY and on a SETUP_FAILED transport, and the later
steps of SETUP and CREATE. -/
theorem test_witness_setup :
    (let s := { ready .p1 with port := presentedPort 9600#32 0#32 [] }
     s.lc = .ready ∧ s.fg.point = none ∧
       validate s.inst s.port.opa ⟨8#4, .even, .two, .none⟩ = some ⟨9600#32, 8#4, .even, .two⟩) ∧
    (let s := { asked .p1 9600#32 0#32 with lc := .setupFailed }
     s.lc = .setupFailed ∧ s.fg.point = none ∧
       validate s.inst s.port.opa ⟨8#4, .even, .two, .none⟩ = some ⟨9600#32, 8#4, .even, .two⟩) ∧
    (let i := Instr.uartSetup ⟨8#4, .even, .two, .none⟩
     (atPoint i (.setupCtrl ⟨9600#32, 8#4, .even, .two⟩) (ready .p1)).fg =
       .running i (.setupCtrl ⟨9600#32, 8#4, .even, .two⟩)) ∧
    (let i := Instr.uartCreate req8n1
     (atPoint i .setupEnd (asked .p1 115200#32 0#32)).fg = .running i .setupEnd) := by decide

/-- DestroyDisablesTheDevice: both steps. -/
theorem test_witness_destroy :
    (AtStart (ready .p1) ∧ (ready .p1).lc = .ready) ∧ ({ ready .p1 with lc := .setupFailed } : State).lc = .setupFailed ∧
    (atPoint .uartDestroy .destroyEnd (ready .p1)).fg = .running .uartDestroy .destroyEnd := ⟨⟨rfl, rfl⟩, rfl, rfl⟩

/-- RejectedConfigurationWritesNothing, ValidationIsTheAllowList, FramePeriodRoundsUp. -/
theorem test_witness_configuration :
    (let s := asked .p0 115200#32 0#32
     s.fg.point = none ∧ s.lc = .unconstructed ∧
       validate s.inst s.port.opa req8n1 = some ⟨115200#32, 8#4, .none, .one⟩ ∧
       validate s.inst s.port.opa ⟨8#4, .none, .one, .hw⟩ = none) ∧
    (ready .p0).lc = .ready ∧ ({ ready .p0 with lc := .setupFailed } : State).lc = .setupFailed ∧
    1 ≤ (1#32 : Word).toNat := by decide

/-- GetTakesTheOldestByte, ReadIsAllOrNothing, ClearEmptiesBothBuffers, TransportQueriesAnswer,
DestroyDisablesTheDevice: an empty `rx`, and one that holds the bytes asked for and one fewer. -/
theorem test_witness_receive :
    ((ready .p0).lc = .ready ∧ (ready .p0).rx.count = 0) ∧
    (let s := holding .p0 [] [0x31#8, 0x32#8]
     s.lc = .ready ∧ s.rx.count ≠ 0 ∧ s.rx.head < s.inst.rxCap ∧
       2 ≤ s.rx.count ∧ s.rx.count < 3) := by decide

/-- PutSteps: each path of PutCore, and the end. -/
theorem test_witness_put :
    (AtStart (ready .p0) ∧ (ready .p0).lc = .ready) ∧
    (let s := atPoint (.uartPut 1#8) (.putGot idleFlags) (ready .p0)
     TrdyHolds idleFlags s ∧ idleFlags.trdy = true ∧ s.tx.count = 0) ∧
    (let s := atPoint (.uartPut 1#8) (.putGot idleFlags) (holding .p0 [1#8, 2#8, 3#8, 4#8] [])
     TrdyHolds idleFlags s ∧ s.tx.count ≠ 0 ∧ s.tx.count = s.inst.txCap) ∧
    (let s := holding .p0 [1#8, 2#8, 3#8] []
     busyFlags.trdy = false ∧ s.tx.count < s.inst.txCap ∧ s.tx.count + 1 = s.inst.txCap) :=
  ⟨⟨rfl, rfl⟩, ⟨fun _ => by decide, rfl, rfl⟩, ⟨fun _ => by decide, by decide, by decide⟩, by decide⟩

/-- WriteChecksCapacityFirst, WriteAcceptsAllBytesInOrder: exactly the free space, and one byte more. -/
theorem test_witness_write :
    (let s := wReady
     s.fault = 0#8 ∧ s.fg = .presented ∧ s.fg.point = none ∧ s.lc = .ready ∧ s.port.din.length = 3 ∧
       s.tx.count + 3 = s.inst.txCap ∧ s.port.din = 1#8 :: [2#8, 3#8]) ∧
    (let s := holding .p1 [1#8, 2#8] []
     s.lc = .ready ∧ s.inst.txCap < s.tx.count + 3 ∧ s.tx.count + 0 ≤ s.inst.txCap) ∧
    (atPoint (.uartWrite 1) (.writeNext []) wReady).fg = .running (.uartWrite 1) (.writeNext []) := by decide

/-- WriteChecksCapacityFirst: each path of PutCore inside WRITE, with and without a byte to follow. -/
theorem test_witness_write_bytes :
    (let s := atPoint (.uartWrite 2) (.writeGot [1#8, 2#8] idleFlags) (ready .p0)
     TrdyHolds idleFlags s ∧ idleFlags.trdy = true ∧ s.tx.count = 0) ∧
    (let s := atPoint (.uartWrite 1) (.writeGot [4#8] idleFlags) (holding .p0 [1#8, 2#8, 3#8] [])
     TrdyHolds idleFlags s ∧ s.tx.count ≠ 0 ∧ s.tx.count < s.inst.txCap) ∧
    (let s := atPoint (.uartWrite 1) (.writeGot [4#8] busyFlags) (holding .p0 [1#8, 2#8, 3#8] [])
     busyFlags.trdy = false ∧ s.tx.count + 1 = s.inst.txCap) ∧
    (atPoint (.uartWrite 2) (.writeNext [2#8]) wReady).fg = .running (.uartWrite 2) (.writeNext [2#8]) ∧
    (held 4 [1#8, 2#8, 3#8]).Live 4 :=
  ⟨⟨fun _ => by decide, rfl, rfl⟩, ⟨fun _ => by decide, by decide, by decide⟩, by decide, rfl,
    ⟨by decide, by decide, by decide, by decide⟩⟩

/-- FlushPrelude: bounds that fit, an idle bound that does not and a frame period that does not. -/
theorem test_witness_flush_prelude :
    (let s := ready .p0
     s.fg.point = none ∧ s.lc = .ready ∧ s.fp.toNat * ((s.inst.ctrHz + 999999) / 1000000) ≤ 2 ^ 32 - 1 ∧
       (s.inst.hwTxDepth + 1) * (s.fp.toNat * ((s.inst.ctrHz + 999999) / 1000000)) ≤ 2 ^ 32 - 1) ∧
    (let s := { ready { Params.p0 with hwTxDepth := 16 } with fp := 10000000#32 }
     s.fp.toNat * ((s.inst.ctrHz + 999999) / 1000000) ≤ 2 ^ 32 - 1 ∧
       (s.inst.hwTxDepth + 1) * (s.fp.toNat * ((s.inst.ctrHz + 999999) / 1000000)) > 2 ^ 32 - 1) ∧
    (let s := { ready .p0 with fp := 0xFFFFFFFF#32 }
     s.fp.toNat * ((s.inst.ctrHz + 999999) / 1000000) > 2 ^ 32 - 1) := by decide

/-- FlushDrainPhase: each branch, with the bound just reached and just not. -/
theorem test_witness_flush_drain :
    (let s := atPoint .uartFlush (.flushDrain 4350#32 8700#32 0#32) (ready .p0)
     s.fg = .running .uartFlush (.flushDrain 4350#32 8700#32 0#32) ∧ s.tx.count = 0) ∧
    (let s := holding .p0 [0x42#8] []
     TrdyHolds idleFlags s ∧ idleFlags.trdy = true ∧ busyFlags.trdy = false ∧ s.tx.count ≠ 0 ∧
       s.tx.head < s.inst.txCap) ∧
    (let s := { holding .p0 [0x42#8] [] with ctr := ⟨true, 4350#32⟩ }
     (4350#32 : Word).toNat ≤ (s.elapsed 0#32).toNat ∧ (s.elapsed 1#32).toNat < (4350#32 : Word).toNat) :=
  ⟨by decide, ⟨fun _ => by decide, by decide⟩, by decide⟩

/-- FlushIdlePhaseAndEnd: idle and not idle on both platforms, with each bound just reached and just not. -/
theorem test_witness_flush_idle :
    ((ready .p0).inst.platform = .nios ∧ idleFlags.tmt = true ∧ busyFlags.tmt = false) ∧
    ((ready { Params.p0 with platform := .microblaze }).inst.platform = .microblaze ∧ idleFlags.txEmpty = true ∧
      busyFlags.txEmpty = false) ∧
    (let s := { ready .p0 with ctr := ⟨true, 8700#32⟩ }
     (8700#32 : Word).toNat ≤ (s.elapsed 0#32).toNat ∧ (s.elapsed 1#32).toNat < (8700#32 : Word).toNat) := by decide

/-- ServiceProtocol, ServiceCommandRunsTheHandler: each branch of the handler. -/
theorem test_witness_service :
    (let s := { holding .p0 [0x42#8] [0x31#8, 0x32#8] with dev := { Device.powerOn with rxq := [0x33#8] } }
     s.dev.rxq = 0x33#8 :: [] ∧ s.rx.count = s.inst.rxCap ∧ 0 < s.inst.hwRxDepth ∧ s.inst.hwRxDepth ≤ 0 + 1 ∧
       TrdyHolds idleFlags s ∧ s.tx.count ≠ 0 ∧ s.tx.head < s.inst.txCap) ∧
    (let s := holding { Params.p0 with hwRxDepth := 2 } [] [0x31#8]
     s.rx.count ≠ s.inst.rxCap ∧ 0 + 1 < s.inst.hwRxDepth ∧ s.tx.count = 0 ∧
       (match bufPush s.inst.rxCap s.rx 2#8 with | .ok b => b.count | .error _ => 0) = 2) ∧
    (serviceStep .h0 wReady = .pause wReady (.h1 (devStatus wReady)) ∧ (ready .p0).lc = .ready) :=
  ⟨⟨rfl, rfl, by decide, by decide, fun _ => by decide, by decide, by decide⟩, by decide, rfl, rfl⟩

/-- ServiceCommandRunsTheHandler: the end of SERVICE from each point it can end at, with and without a byte dropped. -/
theorem test_witness_service_end :
    (∀ p ∈ [SvcPoint.h1 busyFlags, .h2 busyFlags, .h3 busyFlags, .h4], serviceStep p wSvc = .done wSvc) ∧
    (match serviceStep (.h2push busyFlags 0 0x33#8) wSvc with
      | .done t => some (t.rx.contents 2)
      | _ => none) = some [0x31#8, 0x33#8] ∧
    (match serviceStep (.h2push busyFlags 0 0x33#8) { wSvc with rx := held 2 [0x31#8, 0x32#8] } with
      | .done t => some t.sticky.bits
      | _ => none) = some 0b100#3 := by decide

/-- The ISR with a byte in hand and `rx` full. -/
def wDrop : State :=
  { wIsr with rx := held 2 [0x31#8, 0x32#8], isr := .active (.h2push idleFlags 0 0x33#8) }

/-- The ISR about to clear a parity error by resetting the FIFO. -/
def wReset : State :=
  { wIsr with
    inst :=
      { Params.p1 with errClear := .resetRxFifo, devMap := { Params.p1.devMap with rstRx := some 12 } }
    isr := .active (.h1 { idleFlags with pe := true }) }

/-- ServiceKeepsArrivalOrder: the invariant where the next turn drops a byte, and where it resets the FIFO. -/
theorem test_witness_inv_receive : Inv wDrop ∧ Inv wReset :=
  ⟨{ test_witness_inv_isr with
      rx := ⟨by decide, by decide, fun _ => ⟨by decide, by decide, by decide, by decide⟩⟩
      init := by decide, isr := ⟨⟨fun _ => by decide, by decide⟩, by decide, by decide, by decide⟩
      halted := by decide
      irq :=
        { absent := by decide, outside := by decide, inside := by decide
          kept := fun _ _ h => absurd h (by decide)
          ready := by decide, unready := fun h => absurd h (by decide) } },
    { test_witness_inv_isr with
      inst := by decide
      rx := held_rx_ok, tx := held_tx_ok
      isr := ⟨fun _ => by decide, by decide, by decide, by decide⟩
      halted := by decide
      irq :=
        { absent := by decide, outside := by decide, inside := by decide
          kept := fun _ _ h => absurd h (by decide)
          ready := by decide, unready := fun h => absurd h (by decide) } }⟩

/-- ServiceKeepsArrivalOrder: a drop, a reset, an arrival at a full queue and at one that is not, and a turn that is none. -/
theorem test_witness_receive_order :
    wDrop.dropsByte ∧ wReset.resetsFifo ∧
    (nextTurn (turn (.rxArrive 5#8 false false) wReady)).1 = .rxArrive 5#8 false false ∧
    (turn (.rxArrive 5#8 false false) wReady).dev.rxq.length + 1 = wReady.inst.hwRxDepth ∧
    (nextTurn (turn .fg wReady)).1 = .fg ∧ ¬ wIsr.dropsByte ∧ ¬ wIsr.resetsFifo ∧ editsRx (.uartWrite 3) = false := by
  refine ⟨⟨⟨_, _, _, rfl⟩, rfl⟩, ⟨_, rfl, .inl rfl, rfl⟩, rfl, rfl, rfl, ?_, ?_, rfl⟩
  · rintro ⟨⟨f, k, v, h⟩, -⟩
    cases h
  · rintro ⟨f, h, -⟩
    cases h

/-- TransmitOrderIsKept: a turn of another agent, and FG's turn at a command that does not edit `tx` and at PUT's decision. -/
theorem test_witness_order :
    (nextTurn wIsr).1 ≠ .fg ∧ (nextTurn (turn .fg wReady)).1 = .fg ∧
    (match fetchCommand wReady with | .ok i => editsTx i | .error _ => true) = false ∧
    wReady.fg ≠ .idle := by decide

/-- TxInterruptFollowsTheBuffer: a transport with a byte in `tx`, its TX source enabled, and no BUF.PUSH presented. -/
theorem test_witness_armed : TxArmed wReady ∧ ∀ v, fetchCommand wReady ≠ .ok (.bufPush .tx v) :=
  ⟨fun _ _ _ => Or.inl rfl, fun v h => by
    have e : fetchCommand wReady = .ok (.uartWrite 3) := by decide
    rw [e] at h
    cases h⟩

/-- LineErrorsNeverStopATransfer: a command that is no sticky query. -/
theorem test_witness_line_errors :
    Instr.uartGet ≠ .uartOverrun ∧ Instr.uartGet ≠ .uartFraming ∧ Instr.uartGet ≠ .uartParity := by decide

/-- RegisterWordsRoundTrip, DeviceOperationsAreRegisterAccesses: a legal map for each way of clearing the errors, and a byte
to read. -/
theorem test_witness_register_map :
    DevMap.wf .niosInformative .writeStatusZero = true ∧
    DevMap.wf { DevMap.niosInformative with rstRx := some 12 } .resetRxFifo = true ∧
    ({ Params.p0 with errClear := .resetRxFifo, devMap := { Params.p0.devMap with rstRx := some 12 } } : Params).wf = true ∧
    (match devReadRx { ready .p0 with dev := { Device.powerOn with rxq := [0x33#8] } } with
      | .ok (v, _) => some v
      | .error _ => none) = some 0x33#8 ∧
    (match devReadRx (ready .p0) with
      | .ok _ => none
      | .error e => some e) = some (.raise .devProtocol) := by decide

/-! ## Fairness -/

/-- A block with no command, its counter initialized, after `n` ticks. -/
def ticked (n : Nat) : State := { unasked (ready .p0) with ctr := ⟨true, BitVec.ofNat 32 n⟩ }

/-- R81: a run that is fair: the block idles, its interrupt off, and the counter ticks for ever. -/
theorem test_witness_fair : IsRun (fun _ => .tick) ticked ∧ Fair (fun _ => .tick) ticked := by
  refine ⟨fun n => ?_, fun _ _ k => ⟨k, le_rfl, rfl⟩, fun n h => absurd (h n le_rfl) ?_,
    fun n h => absurd (h n le_rfl) ?_, fun n h => absurd rfl h⟩
  · have hw : (ticked n).inst.wf = true := by show Params.p0.wf = true; decide
    have hc : ctrNext (ticked n).inst.ctrDir (BitVec.ofNat 32 n) = BitVec.ofNat 32 (n + 1) := by
      show BitVec.ofNat 32 n + 1#32 = _
      rw [← BitVec.ofNat_add]
    simp only [step, hw, if_true, nextTurn, takeTurn, ctrTick]
    simp only [ticked] at hc ⊢
    rw [hc]
    rfl
  · exact (by decide : ¬ fgEnabled (ticked 0) = true)
  · exact (by decide : ¬ deliverable (ticked 0) = true)

end Sys2Proof.Tests
end

section
/-!
PROOF. What every next state of an outcome has in common (`AllNext`), and with it that no turn of any agent changes the
instance parameters (00_scope.md R11, 10_state.md R20).
-/

namespace Sys2Proof.Machine

/-! Every next state of an outcome. -/

/-- Every next state the outcome has meets `P`; a fault or a refusal of the model has none. -/
def AllNext (P : State → Prop) (o : Outcome) : Prop := ∀ t, o = .next t → P t

section
variable {P : State → Prop} {s : State}

@[simp] theorem allNext_next : AllNext P (.next s) ↔ P s := by simp [AllNext]

@[simp] theorem allNext_fault (f : Fault) : AllNext P (.fault f) := by simp [AllNext]

@[simp] theorem allNext_refused (r : Refusal) : AllNext P (.refused r) := by simp [AllNext]

@[simp] theorem allNext_pauseAt (i : Instr) (p : FgPoint) :
    AllNext P (pauseAt i p s) ↔ P { s with fg := .running i p } := allNext_next

theorem AllNext.onOk {α : Type} {r : Except Stop α} {k : α → Outcome} (raised : ∀ c, P (raiseFault c s))
    (ok : ∀ a, r = .ok a → AllNext P (k a)) : AllNext P (onOk r s k) := by
  intro t h
  obtain ⟨a, hr, hk⟩ | ⟨c, -, rfl⟩ := onOk_next h
  · exact ok a hr t hk
  · exact raised c

/-- An operation's stop is the case of `onOk` without a value. -/
theorem AllNext.stopped (e : Stop) (raised : ∀ c, P (raiseFault c s)) : AllNext P (e.outcome s) :=
  AllNext.onOk (r := .error (α := Unit) e) (k := fun _ => .next s) raised (by simp)

theorem AllNext.admitted {k : AdmitKind} {body : Outcome} (raised : ∀ c, P (raiseFault c s)) (hb : AllNext P body) :
    AllNext P (admitted k s body) := by
  obtain ⟨-, h⟩ | ⟨c, -, h⟩ := admitted_cases k s body <;> rw [h]
  · exact hb
  · exact allNext_next.mpr (raised c)

end

/-! The operations that may stop keep the instance. -/

/-- Every next state of the outcome has the parameters `p`. -/
abbrev KeepsInst (p : Params) (o : Outcome) : Prop := AllNext (fun t => t.inst = p) o

theorem devWriteTx_inst {v : Byte} {s t : State} (h : devWriteTx v s = .ok t) : t.inst = s.inst := by
  obtain ⟨-, h⟩ | ⟨-, h⟩ := devWriteTx_cases h <;> cases h
  rfl

theorem devReadRx_inst {v : Byte} {s t : State} (h : devReadRx s = .ok (v, t)) : t.inst = s.inst := by
  obtain ⟨-, h⟩ | ⟨_, _, -, h⟩ := devReadRx_cases h <;> cases h
  rfl

/-! SERVICE. -/

/-- The state one atomic step of SERVICE leaves, wherever it goes on. -/
def SvcResult.state : SvcResult → State
  | .pause s _ | .done s | .halt _ s => s

theorem serviceRefill_inst (f : DevFlags) (s : State) : (serviceRefill f s).state.inst = s.inst := by
  unfold serviceRefill
  split
  · split
    · rfl
    · split
      · rfl
      · split
        · rfl
        · next hw => exact (devWriteTx_inst hw :)
  · rfl

theorem serviceLoop_inst (f : DevFlags) (k : Nat) (s : State) : (serviceLoop f k s).state.inst = s.inst := by
  unfold serviceLoop
  split
  · split <;> rfl
  · exact serviceRefill_inst f s

theorem serviceDrain_inst (f : DevFlags) (s : State) : (serviceDrain f s).state.inst = s.inst := by
  unfold serviceDrain
  split
  · exact serviceLoop_inst f 0 s
  · exact serviceRefill_inst f s

theorem serviceDeposit_inst {v : Byte} {s t : State} (h : serviceDeposit v s = .ok t) : t.inst = s.inst := by
  unfold serviceDeposit at h
  split at h
  · cases h; rfl
  · cases hp : bufPush s.inst.rxCap s.rx v <;> rw [hp] at h <;> cases h
    rfl

theorem serviceStep_inst (p : SvcPoint) (s : State) : (serviceStep p s).state.inst = s.inst := by
  cases p with
  | h0 => rfl
  | h1 f =>
    simp only [serviceStep]
    split
    · rfl
    · exact serviceDrain_inst f s
  | h2 f => exact serviceDrain_inst f s
  | h2read f k =>
    simp only [serviceStep]
    split
    · rfl
    · next hr => exact devReadRx_inst hr
  | h2push f k v =>
    simp only [serviceStep]
    split
    · rfl
    · next hd => exact (serviceLoop_inst _ _ _).trans (serviceDeposit_inst hd)
  | h3 f => exact serviceRefill_inst f s
  | h4 => rfl

theorem serviceIsr_keepsInst (r : SvcResult) : KeepsInst r.state.inst (serviceIsr r) := by
  cases r with
  | pause s p => simp [serviceIsr, SvcResult.state]
  | done s => simp [serviceIsr, SvcResult.state]
  | halt e s => exact .stopped e fun _ => rfl

theorem serviceCommand_keepsInst (r : SvcResult) : KeepsInst r.state.inst (serviceCommand r) := by
  cases r with
  | pause s p => simp [serviceCommand, SvcResult.state]
  | done s => simp [serviceCommand, SvcResult.state]
  | halt e s => exact .stopped e fun _ => rfl

/-! The commands, by the operation they share. -/

theorem bufCommand_keepsInst (c : Bool) (b : BufId) (body : Nat → Buffer → Except Stop (Buffer × Word)) (s : State) :
    KeepsInst s.inst (bufCommand c b body s) := by
  unfold bufCommand
  split
  · simp
  · exact .onOk (by simp) (by simp)

theorem ctrPure_keepsInst (r : Except Stop Word) (s : State) : KeepsInst s.inst (ctrPure r s) :=
  .onOk (by simp) (by simp)

theorem waitCommand_keepsInst (i : Instr) (conv : Nat → Word → Except Stop Word) (s : State) :
    KeepsInst s.inst (waitCommand i conv s) := by
  unfold waitCommand
  split
  · simp only [waitSample]
    split <;> simp
  · exact .onOk (by simp) (by simp)

theorem setupStart_keepsInst (k : AdmitKind) (i : Instr) (lc : LineReq) (s : State) :
    KeepsInst s.inst (setupStart k i lc s) := by
  refine .admitted (by simp) ?_
  split <;> simp [setupConfigure]

theorem setupCommand_keepsInst (k : AdmitKind) (i : Instr) (lc : LineReq) (s : State) :
    KeepsInst s.inst (setupCommand k i lc s) := by
  unfold setupCommand
  split
  · simp [setupComplete]
  · simp [setupFinish]
  · exact setupStart_keepsInst k i lc s

theorem execUartGet_keepsInst (s : State) : KeepsInst s.inst (execUartGet s) := by
  refine .admitted (by simp) ?_
  dsimp only
  split
  · simp
  · exact .onOk (by simp) (by simp)

theorem execUartRead_keepsInst (n : Nat) (s : State) : KeepsInst s.inst (execUartRead n s) := by
  refine .admitted (by simp) ?_
  dsimp only
  split
  · simp
  · exact .onOk (by simp) (by simp)

theorem stickyQuery_keepsInst (bit : Sticky → Bool) (s : State) : KeepsInst s.inst (stickyQuery bit s) :=
  .admitted (by simp) (by simp)

/-! Sending. -/

/-- The state PutCore goes on from, `s` itself where it found `tx` full. -/
def PutResult.state (s : State) : PutResult → State
  | .sent t | .queued t => t
  | .full => s

theorem putCore_inst {v : Byte} {f : DevFlags} {s : State} {r : PutResult} (h : putCore v f s = .ok r) :
    (r.state s).inst = s.inst := by
  unfold putCore at h
  split at h
  · cases hw : devWriteTx v s <;> rw [hw] at h <;> cases h
    exact devWriteTx_inst hw
  · split at h
    · split at h
      · cases h
      · split at h <;> cases h
        next hw _ => exact (devWriteTx_inst hw :)
    · split at h
      · cases hp : bufPush s.inst.txCap s.tx v <;> rw [hp] at h <;> cases h
        rfl
      · cases h; rfl

theorem putArm_keepsInst (i : Instr) (s : State) : KeepsInst s.inst (putArm i s) := by simp [putArm]

theorem putEnd_keepsInst (s : State) : KeepsInst s.inst (putEnd s) := by simp [putEnd]

theorem putDecide_keepsInst (v : Byte) (f : DevFlags) (s : State) : KeepsInst s.inst (putDecide v f s) := by
  refine .onOk (by simp) fun r hr => ?_
  rw [← putCore_inst hr]
  cases r with
  | sent t => simp [PutResult.state]
  | queued t => exact putArm_keepsInst _ t
  | full => simp [PutResult.state]

theorem execUartPut_keepsInst (v : Byte) (s : State) : KeepsInst s.inst (execUartPut v s) := by
  unfold execUartPut
  split
  · exact putDecide_keepsInst v _ s
  · exact putArm_keepsInst _ s
  · exact putEnd_keepsInst s
  · exact .admitted (by simp) (by simp)

theorem writeLoop_keepsInst (n : Nat) (rest : List Byte) (s : State) : KeepsInst s.inst (writeLoop n rest s) := by
  cases rest with
  | nil => exact putArm_keepsInst _ s
  | cons v vs => simp [writeLoop]

theorem writeStart_keepsInst (n : Nat) (s : State) : KeepsInst s.inst (writeStart n s) := by
  refine .admitted (by simp) ?_
  dsimp only
  split
  · simp
  · split
    · simp
    · exact writeLoop_keepsInst n _ (csEnter s)

theorem writeDecide_keepsInst (n : Nat) (rest : List Byte) (f : DevFlags) (s : State) :
    KeepsInst s.inst (writeDecide n rest f s) := by
  cases rest with
  | nil => exact putArm_keepsInst _ s
  | cons v vs =>
    refine .onOk (by simp) fun r hr => ?_
    rw [← putCore_inst hr]
    cases r with
    | sent t => simp [PutResult.state]
    | queued t => exact writeLoop_keepsInst n vs t
    | full => exact writeLoop_keepsInst n vs s

theorem execUartWrite_keepsInst (n : Nat) (s : State) : KeepsInst s.inst (execUartWrite n s) := by
  unfold execUartWrite
  split
  · exact writeDecide_keepsInst n _ _ s
  · exact writeLoop_keepsInst n _ s
  · exact putEnd_keepsInst s
  · exact writeStart_keepsInst n s

/-! FLUSH. -/

theorem flushStart_keepsInst (s : State) : KeepsInst s.inst (flushStart s) :=
  .admitted (by simp) (.onOk (by simp) fun _ _ => .onOk (by simp) (by simp))

theorem flushDrain_keepsInst (fpc bound base : Word) (s : State) : KeepsInst s.inst (flushDrain fpc bound base s) := by
  simp only [flushDrain]
  split <;> simp

theorem flushSend_keepsInst (fpc bound base : Word) (f : DevFlags) (s : State) :
    KeepsInst s.inst (flushSend fpc bound base f s) := by
  unfold flushSend
  split
  · refine .onOk (by simp) fun r _ => .onOk (by simp) fun t ht => ?_
    simp [devWriteTx_inst ht]
  · simp

theorem flushBound_keepsInst (fpc bound base : Word) (s : State) : KeepsInst s.inst (flushBound fpc bound base s) := by
  simp only [flushBound]
  split <;> simp

theorem flushEnd_keepsInst (s : State) : KeepsInst s.inst (flushEnd s) := by simp [flushEnd]

theorem flushTest_keepsInst (fpc bound base : Word) (f : DevFlags) (s : State) :
    KeepsInst s.inst (flushTest fpc bound base f s) := by
  simp only [flushTest]
  split
  · split
    · exact flushEnd_keepsInst s
    · simp
  · split <;> simp

theorem flushWait_keepsInst (fpc base : Word) (s : State) : KeepsInst s.inst (flushWait fpc base s) := by
  simp only [flushWait]
  split <;> simp

theorem execUartFlush_keepsInst (s : State) : KeepsInst s.inst (execUartFlush s) := by
  unfold execUartFlush
  cases s.fg.point with
  | none => exact flushStart_keepsInst s
  | some p =>
    cases p with
    | flushBase => simp [flushBase]
    | flushDrain => exact flushDrain_keepsInst _ _ _ s
    | flushGot => exact flushSend_keepsInst _ _ _ _ s
    | flushBound => exact flushBound_keepsInst _ _ _ s
    | flushIdle => simp [flushIdle]
    | flushTest => exact flushTest_keepsInst _ _ _ _ s
    | flushWait => exact flushWait_keepsInst _ _ s
    | flushEnd => exact flushEnd_keepsInst s
    | flushDone => simp [flushFinish]
    | _ => exact flushStart_keepsInst s

/-! DESTROY and the command SERVICE. -/

theorem execUartDestroy_keepsInst (s : State) : KeepsInst s.inst (execUartDestroy s) := by
  unfold execUartDestroy
  split
  · simp [destroyFinish]
  · exact .admitted (by simp) (by simp)

theorem execUartService_keepsInst (s : State) : KeepsInst s.inst (execUartService s) := by
  unfold execUartService
  split
  · next p _ => exact serviceStep_inst p s ▸ serviceCommand_keepsInst _
  · refine .admitted (by simp) ?_
    have h : (serviceStep .h0 (csEnter s)).state.inst = s.inst := serviceStep_inst .h0 (csEnter s)
    exact h ▸ serviceCommand_keepsInst _

/-! The agents. -/

theorem exec_keepsInst (i : Instr) (s : State) : KeepsInst s.inst (exec i s) := by
  cases i with
  | bufClear | bufPush | bufPop | bufFront | bufEmpty | bufFull | bufSize | bufAvail | bufMaxsize =>
    unfold exec; exact bufCommand_keepsInst _ _ _ s
  | ctrNow | ctrTimeout => simp [exec, execCtrNow, execCtrTimeout]
  | ctrNs2cnt | ctrUs2cnt | ctrMs2cnt | ctrDiff | ctrMeasns | ctrMeasus | ctrMeasms =>
    unfold exec; exact ctrPure_keepsInst _ s
  | ctrWaitns | ctrWaitus | ctrWaitms => exact waitCommand_keepsInst _ _ s
  | uartSetup | uartCreate => exact setupCommand_keepsInst _ _ _ s
  | uartGet => exact execUartGet_keepsInst s
  | uartPut v => exact execUartPut_keepsInst v s
  | uartRead n => exact execUartRead_keepsInst n s
  | uartWrite n => exact execUartWrite_keepsInst n s
  | uartClear | uartFrameperiod => exact .admitted (by simp) (by simp)
  | uartFlush => exact execUartFlush_keepsInst s
  | uartOverrun | uartFraming | uartParity => exact stickyQuery_keepsInst _ s
  | uartDestroy => exact execUartDestroy_keepsInst s
  | uartService => exact execUartService_keepsInst s

theorem fgStep_keepsInst (s : State) : KeepsInst s.inst (fgStep s) := by
  unfold fgStep
  split
  · simp
  · split
    · simp
    · split
      · simp [rejectCommand]
      · exact exec_keepsInst _ s
    · exact exec_keepsInst _ s

theorem isrStep_keepsInst (s : State) : KeepsInst s.inst (isrStep s) := by
  unfold isrStep
  split
  · simp
  · split
    · split <;> simp
    · next p _ => exact serviceStep_inst p s ▸ serviceIsr_keepsInst _

theorem hostStep_keepsInst (cmd opa opb : Word) (din : List Byte) (s : State) :
    KeepsInst s.inst (hostStep cmd opa opb din s) := by
  unfold hostStep
  split <;> simp

@[simp] theorem rxArrive_inst (v : Byte) (p f : Bool) (s : State) : (rxArrive v p f s).inst = s.inst := by
  simp only [rxArrive]
  split <;> rfl

@[simp] theorem txLoad_inst (s : State) : (txLoad s).inst = s.inst := by
  unfold txLoad
  split <;> rfl

@[simp] theorem txDone_inst (s : State) : (txDone s).inst = s.inst := by
  unfold txDone
  split <;> rfl

@[simp] theorem ctrTick_inst (s : State) : (ctrTick s).inst = s.inst := by
  unfold ctrTick
  split <;> rfl

theorem takeTurn_keepsInst (e : Event) (s : State) : KeepsInst s.inst (takeTurn e s) := by
  cases e with
  | present cmd opa opb din => exact hostStep_keepsInst cmd opa opb din s
  | fg => exact fgStep_keepsInst s
  | isr => exact isrStep_keepsInst s
  | rxArrive | txLoad | txDone | tick => simp [takeTurn]

@[simp] theorem nextTurn_inst (s : State) : (nextTurn s).2.inst = s.inst := by
  unfold nextTurn
  split <;> rfl

theorem step_keepsInst (s : State) : KeepsInst s.inst (step s) := by
  unfold step
  split
  · exact nextTurn_inst s ▸ takeTurn_keepsInst _ _
  · simp

/-- Settles O19: a step is the turn of one agent, and no agent's turn writes `inst`. -/
theorem instanceIsFixed : Obligations.InstanceIsFixed := step_keepsInst

end Sys2Proof.Machine
end

section
/-!
PROOF. What the shared operations keep of `Inv` (10_state.md R22, R28): the buffers, the hardware queues and the enables,
whatever FG and the ISR are doing.
-/

namespace Sys2Proof.Machine

/-! The buffers. -/

/-- `c` is a buffer that an operation may leave where it found `b`: well-formed, and still initialized if `b` was. -/
structure Buffer.Follows (cap : Nat) (b c : Buffer) : Prop where
  ok : c.Ok cap
  init : b.init = true → c.init = true

theorem Buffer.Ok.follows {cap : Nat} {b : Buffer} (h : b.Ok cap) : b.Follows cap b := ⟨h, id⟩

theorem Buffer.Follows.trans {cap : Nat} {b c d : Buffer} (h : b.Follows cap c) (h' : c.Follows cap d) :
    b.Follows cap d := ⟨h'.ok, h'.init ∘ h.init⟩

theorem bufClear_follows {cap : Nat} {b : Buffer} (h : b.Ok cap) (hc : 1 ≤ cap) : b.Follows cap (bufClear b) where
  ok := ⟨h.wf, h.slots, fun _ => ⟨hc, hc, Nat.zero_le _, (Nat.zero_mod _).symm⟩⟩
  init _ := rfl

theorem bufPush_follows {cap : Nat} {b c : Buffer} {v : Byte} (h : b.Ok cap) (hp : bufPush cap b v = .ok c) :
    b.Follows cap c ∧ c.count = b.count + 1 := by
  obtain ⟨-, e⟩ | ⟨notFull, tail, e⟩ | ⟨-, -, e⟩ := bufPush_cases hp <;> cases e
  refine ⟨⟨⟨memory_write_wf _ _ _ h.wf, fun d hd => ?_, fun hi => ?_⟩, id⟩, rfl⟩
  · obtain e | hd := memory_write_slots _ _ _ d hd
    · exact e ▸ tail
    · exact h.slots d hd
  · have live := h.live hi
    have := live.count_le
    refine ⟨live.head_lt, inc_lt tail, by simp only; omega, ?_⟩
    calc inc b.tail cap = (b.tail + 1) % cap := inc_eq_mod tail
      _ = (b.head + (b.count + 1)) % cap := by rw [live.tail_eq, Nat.mod_add_mod, Nat.add_assoc]

theorem bufPop_follows {cap : Nat} {b c : Buffer} (h : b.Ok cap) (hp : bufPop cap b = .ok c) :
    b.Follows cap c ∧ b.count = c.count + 1 := by
  obtain ⟨-, e⟩ | ⟨notEmpty, e⟩ := bufPop_cases hp <;> cases e
  refine ⟨⟨⟨h.wf, h.slots, fun hi => ?_⟩, id⟩, by simp only; omega⟩
  have live := h.live hi
  have := live.count_le
  refine ⟨inc_lt live.head_lt, live.tail_lt, by simp only; omega, ?_⟩
  simp only [inc_eq_mod live.head_lt, live.tail_eq, Nat.mod_add_mod]
  congr 1
  omega

theorem bufTake_follows {cap : Nat} {b c : Buffer} {v : Byte} (h : b.Ok cap) (ht : bufTake cap b = .ok (v, c)) :
    b.Follows cap c ∧ b.count = c.count + 1 := by
  obtain ⟨-, e⟩ | ⟨notEmpty, -, e⟩ | ⟨-, -, e⟩ := bufTake_cases ht <;> cases e
  exact bufPop_follows h (by simp [bufPop, notEmpty])

theorem bufTakeMany_follows {cap n : Nat} {b c : Buffer} {vs : List Byte} (h : b.Ok cap)
    (ht : bufTakeMany cap n b = .ok (vs, c)) : b.Follows cap c := by
  induction n generalizing b vs with
  | zero => cases ht; exact h.follows
  | succ n ih =>
    rw [bufTakeMany_succ] at ht
    split at ht
    · cases ht
    · next b' h1 =>
      have first := (bufTake_follows h h1).1
      split at ht <;> cases ht
      next h2 => exact first.trans (ih first.ok h2)

/-- R22: a byte can be put into an initialized buffer that is not full. -/
theorem bufPush_live {cap : Nat} {b : Buffer} (v : Byte) (h : b.Live cap) (hc : b.count ≠ cap) :
    ∃ c, bufPush cap b v = .ok c := by
  obtain ⟨e, -⟩ | ⟨-, -, e⟩ | ⟨-, out, -⟩ := bufPush_cases (cap := cap) (b := b) (v := v) rfl
  · exact absurd e hc
  · exact ⟨_, e⟩
  · exact absurd h.tail_lt out

theorem cap_pos {s : State} (h : s.inst.wf = true) (b : BufId) : 1 ≤ s.cap b := by
  simp only [Params.wf, Bool.and_eq_true, decide_eq_true_eq] at h
  cases b <;> simp only [cap_tx, cap_rx] <;> omega

/-! The data of the block. -/

/-- The clauses of `Inv` about the buffers, the hardware queues and the enables. They hold inside every step as well. -/
structure DataOk (s : State) : Prop where
  inst : s.inst.wf = true
  tx : s.tx.Ok s.inst.txCap
  rx : s.rx.Ok s.inst.rxCap
  rxq : s.dev.rxq.length ≤ s.inst.hwRxDepth
  txq : s.dev.txq.length ≤ s.inst.hwTxDepth
  ier : s.ier = s.dev.ctrl
  init : s.lc = .ready ∨ s.irqc.registered = true → s.tx.init = true ∧ s.rx.init = true

theorem Inv.data {s : State} (h : Inv s) : DataOk s := ⟨h.inst, h.tx, h.rx, h.rxq, h.txq, h.ier, h.init⟩

theorem DataOk.buf {s : State} (h : DataOk s) (b : BufId) : (s.buf b).Ok (s.cap b) := by
  cases b
  · exact h.tx
  · exact h.rx

theorem DataOk.setBuf {s : State} {b : BufId} {c : Buffer} (h : DataOk s) (hc : (s.buf b).Follows (s.cap b) c) :
    DataOk (s.setBuf b c) := by
  cases b
  · exact { h with tx := hc.ok, init := fun hs => (h.init hs).imp_left hc.init }
  · exact { h with rx := hc.ok, init := fun hs => (h.init hs).imp_right hc.init }

theorem DataOk.setIer {s : State} (h : DataOk s) (m : Enables) : DataOk (setIer m s) := { h with ier := rfl }

/-- R235: where the device has room, DevWriteTx appends the byte. -/
theorem DataOk.sendTx {s : State} (h : DataOk s) (v : Byte) (room : s.dev.txq.length ≠ s.inst.hwTxDepth) :
    DataOk { s with dev := { s.dev with txq := s.dev.txq ++ [v] } } :=
  { h with txq := by have := h.txq; simp only [List.length_append, List.length_singleton]; omega }

theorem DataOk.devClearErr {s : State} (h : DataOk s) : DataOk (devClearErr s) :=
  { h with
    rxq := by
      simp only [Machine.devClearErr]
      split
      · exact h.rxq
      · exact Nat.zero_le _ }

theorem csEnter_registered (s : State) : (csEnter s).irqc.registered = s.irqc.registered := by
  rw [csEnter_irqc]; split <;> rfl

theorem csExit_registered (s : State) : (csExit s).irqc.registered = s.irqc.registered := by
  rw [csExit_irqc]; split <;> rfl

theorem DataOk.csEnter {s : State} (h : DataOk s) : DataOk (csEnter s) :=
  { h with init := fun hs => h.init (csEnter_registered s ▸ hs) }

theorem DataOk.csExit {s : State} (h : DataOk s) : DataOk (csExit s) :=
  { h with init := fun hs => h.init (csExit_registered s ▸ hs) }

/-! What `Inv` and R33 look at beside the data. -/

/-- What the DEV and CTR agents and SERVICE leave alone: the parameters, the interrupt controller, the lifecycle, the fault,
FG, the critical section and the port. -/
def State.control (s : State) := (s.inst, s.irqc, s.lc, s.fault, s.fg, s.inCS, s.saved, s.port)

theorem control_eq_iff {s t : State} :
    t.control = s.control ↔ t.inst = s.inst ∧ t.irqc = s.irqc ∧ t.lc = s.lc ∧ t.fault = s.fault ∧ t.fg = s.fg ∧
      t.inCS = s.inCS ∧ t.saved = s.saved ∧ t.port = s.port := by
  simp [State.control]

/-- A step that leaves the control part alone keeps `Inv` if it keeps the data and what holds at FG's and the ISR's
points. -/
theorem Inv.of_control {s t : State} (h : Inv s) (same : t.control = s.control) (data : DataOk t)
    (halted : s.fault = 0#8 ∨ t.isr = .inactive) (fg : FgOk t) (isr : IsrOk t) : Inv t := by
  obtain ⟨hinst, hirqc, hlc, hfault, hfg, hcs, hsaved, hport⟩ := control_eq_iff.1 same
  have irq := h.irq
  exact
    { inst := data.inst, tx := data.tx, rx := data.rx, rxq := data.rxq, txq := data.txq, ier := data.ier
      init := data.init, fg := fg, isr := isr
      busy := by rw [hport, hfg]; exact h.busy
      section_ := by rw [hfault, hcs, hfg]; exact h.section_
      halted := by
        rw [hfault, hfg]
        exact fun hf => ⟨(h.halted hf).1, halted.resolve_left hf⟩
      code := by rw [hfault]; exact h.code
      status := by rw [hport]; exact h.status
      irq :=
        { absent := by rw [hinst, hirqc]; exact irq.absent
          outside := by rw [hfault, hcs, hirqc]; exact irq.outside
          inside := by rw [hfault, hcs, hirqc]; exact irq.inside
          kept := by rw [hfault, hinst, hcs, hfg, hsaved, hirqc]; exact irq.kept
          ready := by rw [hlc, hinst, hirqc, hfg]; exact irq.ready
          unready := by rw [hlc, hirqc, hfg]; exact irq.unready } }

/-- `tx` holds no byte that it did not hold before with its interrupt source as before (R33). -/
def TxFollows (s t : State) : Prop := t.tx.count ≠ 0 → s.tx.count ≠ 0 ∧ (s.ier.txe = true → t.ier.txe = true)

theorem TxFollows.refl (s : State) : TxFollows s s := fun h => ⟨h, id⟩

theorem TxFollows.trans {s t u : State} (h : TxFollows s t) (h' : TxFollows t u) : TxFollows s u := fun hu =>
  have ⟨ht, htu⟩ := h' hu
  have ⟨hs, hst⟩ := h ht
  ⟨hs, htu ∘ hst⟩

theorem TxArmed.of_control {s t : State} (h : TxArmed s) (same : t.control = s.control) (tx : TxFollows s t) :
    TxArmed t := by
  obtain ⟨-, -, hlc, hfault, hfg, -, -, -⟩ := control_eq_iff.1 same
  intro h0 hr hc
  obtain ⟨hc, htxe⟩ := tx hc
  rw [hfg]
  exact (h (hfault ▸ h0) (hlc ▸ hr) hc).imp_left htxe

/-- The invariant, and with it R33's clause where `armed` asks for it: the two are kept by one argument. -/
structure Kept (armed : Prop) (s : State) : Prop where
  inv : Inv s
  tx : armed → TxArmed s

theorem Kept.of_control {a : Prop} {s t : State} (h : Kept a s) (same : t.control = s.control) (data : DataOk t)
    (halted : s.fault = 0#8 ∨ t.isr = .inactive) (fg : FgOk t) (isr : IsrOk t) (tx : TxFollows s t) : Kept a t :=
  ⟨h.inv.of_control same data halted fg isr, fun ha => (h.tx ha).of_control same tx⟩

end Sys2Proof.Machine
end

section
/-!
PROOF. The agents beside FG keep the invariant: DEV and CTR (44_device.md R240 to R242, 41_counter.md R141), SERVICE step by
step (43_handler.md R211 to R214) and with it the ISR (R215, 60_exceptions.md R258), and the HOST (10_state.md R48).
-/

namespace Sys2Proof.Machine

/-! DEV, CTR and the scheduler. -/

/-- What a step of DEV, of CTR or of the scheduler leaves alone: no status read that saw transmit-ready or receive-ready goes
stale by it (R214, R244). -/
structure Quiet (s t : State) : Prop where
  control : t.control = s.control
  isr : t.isr = s.isr
  tx : t.tx = s.tx
  rx : t.rx = s.rx
  ier : t.ier = s.ier
  ctr : t.ctr.init = s.ctr.init
  ctrl : t.dev.ctrl = s.dev.ctrl
  txq : t.dev.txq.length ≤ s.dev.txq.length
  rxq : s.dev.rxq ≠ [] → t.dev.rxq ≠ []
  depth : s.dev.rxq.length ≤ s.inst.hwRxDepth → t.dev.rxq.length ≤ s.inst.hwRxDepth

theorem TrdyHolds.quiet {f : DevFlags} {s t : State} (h : TrdyHolds f s) (q : Quiet s t) : TrdyHolds f t := fun hf => by
  rw [(control_eq_iff.1 q.control).1]
  exact Nat.lt_of_le_of_lt q.txq (h hf)

theorem SvcOk.quiet {p : SvcPoint} {s t : State} (h : SvcOk p s) (q : Quiet s t) : SvcOk p t := by
  cases p with
  | h0 | h4 => trivial
  | h1 f | h2 f | h3 f => exact TrdyHolds.quiet h q
  | h2read f k =>
    obtain ⟨trdy, more, ready⟩ := h
    exact ⟨trdy.quiet q, (control_eq_iff.1 q.control).1 ▸ more, q.rxq ready⟩
  | h2push f k v =>
    obtain ⟨trdy, more⟩ := h
    exact ⟨trdy.quiet q, (control_eq_iff.1 q.control).1 ▸ more⟩

theorem FgPointOk.quiet {p : FgPoint} {s t : State} (h : FgPointOk p s) (q : Quiet s t) : FgPointOk p t := by
  obtain ⟨hinst, hirqc, hlc, -⟩ := control_eq_iff.1 q.control
  cases p <;> simp only [FgPointOk, hinst, hirqc, hlc, q.tx, q.rx, q.ier, q.ctr] at h ⊢
  case putGot f => exact ⟨h.1, h.2.quiet q⟩
  case writeGot rest f => exact ⟨h.1, h.2.1.quiet q, h.2.2⟩
  case flushGot fpc bound base f => exact ⟨h.1, h.2.1, h.2.2.1.quiet q, h.2.2.2⟩
  case svc p => exact ⟨h.1, h.2.quiet q⟩
  all_goals exact h

theorem FgOk.quiet {s t : State} (h : FgOk s) (q : Quiet s t) : FgOk t := by
  obtain ⟨-, -, -, -, hfg, -⟩ := control_eq_iff.1 q.control
  unfold FgOk at h ⊢
  rw [hfg]
  split
  · next e => rw [e] at h; exact ⟨h.1, h.2.quiet q⟩
  · trivial

theorem IsrOk.quiet {s t : State} (h : IsrOk s) (q : Quiet s t) : IsrOk t := by
  obtain ⟨hinst, hirqc, -, -, -, hcs, -⟩ := control_eq_iff.1 q.control
  unfold IsrOk at h ⊢
  rw [q.isr, hinst, hirqc, hcs]
  split
  · trivial
  · next e => rw [e] at h; exact ⟨h.1.quiet q, h.2⟩

theorem DataOk.quiet {s t : State} (h : DataOk s) (q : Quiet s t) : DataOk t := by
  obtain ⟨hinst, hirqc, hlc, -⟩ := control_eq_iff.1 q.control
  exact
    { inst := hinst ▸ h.inst
      tx := by rw [q.tx, hinst]; exact h.tx
      rx := by rw [q.rx, hinst]; exact h.rx
      rxq := hinst ▸ q.depth h.rxq
      txq := hinst ▸ q.txq.trans h.txq
      ier := by rw [q.ier, q.ctrl]; exact h.ier
      init := by rw [hlc, hirqc, q.tx, q.rx]; exact h.init }

theorem Kept.quiet {a : Prop} {s t : State} (h : Kept a s) (q : Quiet s t) : Kept a t := by
  refine h.of_control q.control (h.inv.data.quiet q) ?_ (h.inv.fg.quiet q) (h.inv.isr.quiet q) ?_
  · by_cases hf : s.fault = 0#8
    · exact .inl hf
    · exact .inr (q.isr.trans (h.inv.halted hf).2)
  · unfold TxFollows
    rw [q.tx, q.ier]
    exact TxFollows.refl s

theorem nextTurn_quiet (s : State) : Quiet s (nextTurn s).2 := by
  unfold nextTurn
  split <;> exact ⟨rfl, rfl, rfl, rfl, rfl, rfl, rfl, le_rfl, id, id⟩

theorem rxArrive_quiet (v : Byte) (p f : Bool) (s : State) : Quiet s (rxArrive v p f s) := by
  unfold rxArrive
  split
  · exact ⟨rfl, rfl, rfl, rfl, rfl, rfl, rfl, le_rfl, id, id⟩
  · next room =>
    exact ⟨rfl, rfl, rfl, rfl, rfl, rfl, rfl, le_rfl, by simp,
      by simp only [List.length_append, List.length_singleton]; omega⟩

theorem txLoad_quiet (s : State) : Quiet s (txLoad s) := by
  unfold txLoad
  split
  · next hq => exact ⟨rfl, rfl, rfl, rfl, rfl, rfl, rfl, by simp [hq], id, id⟩
  · exact ⟨rfl, rfl, rfl, rfl, rfl, rfl, rfl, le_rfl, id, id⟩

theorem txDone_quiet (s : State) : Quiet s (txDone s) := by
  unfold txDone
  split <;> exact ⟨rfl, rfl, rfl, rfl, rfl, rfl, rfl, le_rfl, id, id⟩

theorem ctrTick_quiet (s : State) : Quiet s (ctrTick s) := by
  unfold ctrTick
  split <;> exact ⟨rfl, rfl, rfl, rfl, rfl, rfl, rfl, le_rfl, id, id⟩

/-! SERVICE. -/

/-- What one atomic step of SERVICE leaves alone, and what it keeps. -/
structure SvcFrame (s t : State) : Prop where
  control : t.control = s.control
  isr : t.isr = s.isr
  ctr : t.ctr = s.ctr
  data : DataOk t
  tx : TxFollows s t
  live : s.tx.init = true ∧ s.rx.init = true → t.tx.init = true ∧ t.rx.init = true

/-- One atomic step of SERVICE from `s` raises no fault, and where it pauses the next point's facts hold. -/
def SvcKept (s : State) : SvcResult → Prop
  | .pause t p => SvcFrame s t ∧ SvcOk p t
  | .done t => SvcFrame s t
  | .halt _ _ => False

theorem DataOk.svcFrame {s : State} (h : DataOk s) : SvcFrame s s := ⟨rfl, rfl, rfl, h, TxFollows.refl s, id⟩

theorem SvcKept.after {s t : State} {r : SvcResult} (h : SvcKept t r) (f : SvcFrame s t) : SvcKept s r := by
  have trans {u : State} (g : SvcFrame t u) : SvcFrame s u :=
    ⟨g.control.trans f.control, g.isr.trans f.isr, g.ctr.trans f.ctr, g.data, f.tx.trans g.tx, g.live ∘ f.live⟩
  cases r with
  | pause u p => exact ⟨trans h.1, h.2⟩
  | done u => exact trans h
  | halt e u => exact h

theorem trdyHolds_devStatus (s : State) : TrdyHolds (devStatus s) s := by simp [TrdyHolds]

section
variable {f : DevFlags} {s : State} (data : DataOk s) (live : s.tx.init = true ∧ s.rx.init = true)
include data live

theorem serviceRefill_kept (trdy : TrdyHolds f s) : SvcKept s (serviceRefill f s) := by
  cases hf : f.trdy with
  | false => rw [serviceRefill_idle hf]; exact data.svcFrame
  | true =>
    have room := trdy hf
    by_cases h0 : s.tx.count = 0
    · rw [serviceRefill_empty hf h0]
      exact ⟨⟨rfl, rfl, rfl, data.setIer _, fun h => absurd h0 h, id⟩, trivial⟩
    · have notFull : s.dev.txq.length ≠ s.inst.hwTxDepth := by omega
      have pop := (bufPop_follows data.tx (if_neg h0)).1
      rw [serviceRefill_send hf h0 (data.tx.live live.1).head_lt notFull]
      exact ⟨⟨rfl, rfl, rfl, (data.sendTx _ notFull).setBuf (b := .tx) pop, fun _ => ⟨h0, id⟩, id⟩, trivial⟩

theorem serviceLoop_kept {k : Nat} (trdy : TrdyHolds f s) : SvcKept s (serviceLoop f k s) := by
  unfold serviceLoop
  split
  · next more =>
    split
    · next ready => exact ⟨data.svcFrame, trdy, more, by simpa using ready⟩
    · exact ⟨data.svcFrame, trdy⟩
  · exact serviceRefill_kept data live trdy

theorem serviceDrain_kept (trdy : TrdyHolds f s) : SvcKept s (serviceDrain f s) := by
  unfold serviceDrain
  split
  · exact serviceLoop_kept data live trdy
  · exact serviceRefill_kept data live trdy

/-- R213: the deposit never faults, `rx` being initialized. -/
theorem serviceDeposit_kept (v : Byte) :
    ∃ t, serviceDeposit v s = .ok t ∧ SvcFrame s t ∧ t.inst = s.inst ∧ t.dev = s.dev := by
  unfold serviceDeposit
  split
  · exact ⟨_, rfl, ⟨rfl, rfl, rfl, { data with }, TxFollows.refl s, id⟩, rfl, rfl⟩
  · next notFull =>
    obtain ⟨c, hc⟩ := bufPush_live v (data.rx.live live.2) notFull
    have push := (bufPush_follows data.rx hc).1
    refine ⟨{ s with rx := c }, by rw [hc]; rfl, ?_, rfl, rfl⟩
    exact ⟨rfl, rfl, rfl, data.setBuf (b := .rx) push, TxFollows.refl s, fun h => ⟨h.1, push.init h.2⟩⟩

/-- R211 to R214, R218: a step of SERVICE keeps what holds at its points, and raises no fault. -/
theorem serviceStep_kept {p : SvcPoint} (at_ : SvcOk p s) : SvcKept s (serviceStep p s) := by
  cases p with
  | h0 => exact ⟨data.svcFrame, trdyHolds_devStatus s⟩
  | h1 f =>
    simp only [serviceStep]
    split
    · exact ⟨⟨rfl, rfl, rfl, DataOk.devClearErr { data with }, TxFollows.refl s, id⟩, at_⟩
    · exact serviceDrain_kept data live at_
  | h2 f => exact serviceDrain_kept data live at_
  | h2read f k =>
    obtain ⟨trdy, more, ready⟩ := at_
    obtain ⟨empty, -⟩ | ⟨v, q, hq, hr⟩ := devReadRx_cases (s := s) rfl
    · exact absurd empty ready
    · have shorter : q.length ≤ s.inst.hwRxDepth := by
        have := data.rxq
        rw [hq, List.length_cons] at this
        omega
      simp only [serviceStep, hr]
      exact ⟨⟨rfl, rfl, rfl, { data with rxq := shorter }, TxFollows.refl s, id⟩, trdy, more⟩
  | h2push f k v =>
    obtain ⟨t, ht, frame, hinst, hdev⟩ := serviceDeposit_kept data live v
    have trdy : TrdyHolds f t := by
      unfold TrdyHolds
      rw [hinst, hdev]
      exact at_.1
    simp only [serviceStep, ht]
    exact (serviceLoop_kept frame.data (frame.live live) trdy).after frame
  | h3 f => exact serviceRefill_kept data live at_
  | h4 => exact data.svcFrame

end

/-! The ISR. -/

/-- What holds at FG's points outside a critical section, the only ones at which the ISR may run, outlasts a step of it. -/
theorem FgPointOk.service {p : FgPoint} {s t : State} (h : FgPointOk p s) (out : p.inSection = false) (f : SvcFrame s t) :
    FgPointOk p t := by
  obtain ⟨-, -, hlc, -⟩ := control_eq_iff.1 f.control
  have empty : s.tx.count = 0 → t.tx.count = 0 := fun h0 => by_contra fun hn => (f.tx hn).1 h0
  cases p <;> simp only [FgPoint.inSection, Bool.true_eq_false] at out <;> simp only [FgPointOk, hlc, f.ctr] at h ⊢
  case flushIdle | flushTest | flushWait | flushEnd | flushDone => exact ⟨h.1, h.2.1, empty h.2.2⟩
  all_goals exact h

theorem FgOk.service {s t : State} (h : FgOk s) (out : s.fg.inSection = false) (f : SvcFrame s t) : FgOk t := by
  obtain ⟨-, -, -, -, hfg, -⟩ := control_eq_iff.1 f.control
  unfold FgOk at h ⊢
  rw [hfg]
  split
  · next e => rw [e] at h out; exact ⟨h.1, h.2.service out f⟩
  · trivial

/-- R215: a step of SERVICE as the ISR, paused at `q` or ended. -/
theorem Kept.service {a : Prop} {s t : State} {q : IsrState} (h : Kept a s) (h0 : s.fault = 0#8) (hcs : s.inCS = false)
    (f : SvcFrame s t) (isr : IsrOk { t with isr := q }) : Kept a { t with isr := q } :=
  have out : s.fg.inSection = false := (h.inv.section_ h0).symm.trans hcs
  have fg : FgOk t := h.inv.fg.service out f
  h.of_control f.control { f.data with } (.inl h0) fg isr f.tx

theorem isrStep_kept {a : Prop} {s : State} (h : Kept a s) : AllNext (Kept a) (isrStep s) := by
  unfold isrStep
  split
  · exact allNext_next.2 h
  · next h0 =>
    rw [not_not] at h0
    split
    · next inactive =>
      refine allNext_next.2 ?_
      split
      · next deliver =>
        simp only [deliverable, Bool.and_eq_true, Bool.not_eq_true'] at deliver
        obtain ⟨⟨⟨⟨⟨⟨hasIrq, registered⟩, -⟩, -⟩, hcs⟩, -⟩, -⟩ := deliver
        exact h.service h0 hcs h.inv.data.svcFrame ⟨trivial, hcs, registered, hasIrq⟩
      · exact h
    · next p active =>
      have isr := h.inv.isr
      simp only [IsrOk, active] at isr
      obtain ⟨at_, hcs, registered, hasIrq⟩ := isr
      have kept := serviceStep_kept h.inv.data (h.inv.init (.inr registered)) at_
      cases hr : serviceStep p s with
      | pause t q =>
        rw [hr] at kept
        obtain ⟨frame, next⟩ := kept
        obtain ⟨hinst, hirqc, -, -, -, hcs', -⟩ := control_eq_iff.1 frame.control
        refine allNext_next.2 (h.service h0 hcs frame ⟨next, ?_⟩)
        simp only [hinst, hirqc, hcs', hcs, registered, hasIrq, and_self]
      | done t =>
        rw [hr] at kept
        exact allNext_next.2 (h.service h0 hcs kept trivial)
      | halt e t => rw [hr] at kept; exact kept.elim

/-! The HOST. -/

/-- R31, R174: outside SetupCore and DESTROY a READY transport with an interrupt has its handler installed. -/
theorem IrqOk.registered_of_ready {s : State} (h : IrqOk s) (other : s.fg.setsIrqc = false) (hr : s.lc = .ready)
    (hasIrq : s.inst.irq.isSome = true) : s.irqc.registered = true :=
  (h.ready hr hasIrq).resolve_right fun e => by simp [e, FgState.setsIrqc] at other

/-- R31, R191: outside SetupCore and DESTROY a transport not yet constructed, or destroyed, has no handler installed. -/
theorem IrqOk.unregistered_of_unready {s : State} (h : IrqOk s) (other : s.fg.setsIrqc = false)
    (hl : s.lc = .unconstructed ∨ s.lc = .destroyed) : s.irqc.registered = false :=
  (h.unready hl).resolve_right fun ⟨_, e⟩ => by simp [e, FgState.setsIrqc] at other

theorem hostStep_kept {a : Prop} {s : State} (cmd opa opb : Word) (din : List Byte) (h : Kept a s) :
    AllNext (Kept a) (hostStep cmd opa opb din s) := by
  unfold hostStep
  split
  · simp
  · next legal =>
    simp only [Bool.or_eq_true, decide_eq_true_eq, not_or, not_not, Bool.not_eq_true] at legal
    obtain ⟨free, h0⟩ := legal
    have idle : s.fg = .idle := by
      by_contra busy
      simp [h.inv.busy.2 busy] at free
    have out : s.inCS = false := by rw [h.inv.section_ h0, idle]; rfl
    have irq := h.inv.irq
    have other : s.fg.setsIrqc = false := by rw [idle]; rfl
    refine allNext_next.2 ⟨?_, fun ha hf hr hc => ?_⟩
    · exact
        { h.inv with
          busy := by simp
          section_ := fun _ => out
          halted := fun hf => absurd h0 hf
          fg := trivial
          irq :=
            { irq with
              kept := fun _ _ hcs => by simp [out] at hcs
              ready := fun hr hs => .inl (irq.registered_of_ready other hr hs)
              unready := fun hl => .inl (irq.unregistered_of_unready other hl) } }
    · have armed := h.tx ha h0 hr hc
      simp only [idle, reduceCtorEq, exists_false, or_false] at armed
      exact .inl armed

end Sys2Proof.Machine
end

section
/-!
PROOF. What holds inside a step of FG (10_state.md R36, R38; 20_memory.md R72, R73), how the shared operations keep it, and
the ways a step of FG ends: a fault (60_exceptions.md R252), an answer (R47), a pause at a point (R71).
-/

namespace Sys2Proof.Machine

/-- What holds while FG takes a step: no fault, the ISR inactive, a command in the port. `cs` says whether FG is inside a
critical section, where the interrupt source is disabled. -/
structure InTurn (cs : Bool) (s : State) : Prop where
  data : DataOk s
  fault : s.fault = 0#8
  isr : s.isr = .inactive
  inCS : s.inCS = cs
  busy : s.port.busy = true
  status : s.port.sts.toNat ≤ 4 ∨ s.port.sts = 0xFF#8
  absent : s.inst.irq = none → s.irqc = ⟨false, false⟩
  enabled : s.irqc.enabled = (!cs && s.irqc.registered)

/-- The same for a command that is neither SetupCore nor DESTROY: `saved` holds what the section's end restores, the handler is
installed as the lifecycle says (R31, R174, R191), and R33's clause holds where `armed` asks for it. -/
structure FgTurn (armed : Prop) (cs : Bool) (s : State) : Prop extends InTurn cs s where
  saved : cs = true → s.inst.irq.isSome = true → s.saved = s.irqc.registered
  ready : s.lc = .ready → s.inst.irq.isSome = true → s.irqc.registered = true
  unready : s.lc = .unconstructed ∨ s.lc = .destroyed → s.irqc.registered = false
  tx : armed → s.lc = .ready → s.tx.count ≠ 0 → s.ier.txe = true

theorem Inv.inTurn {s : State} (h : Inv s) (h0 : s.fault = 0#8) (hi : s.isr = .inactive) (busy : s.fg ≠ .idle) :
    InTurn s.fg.inSection s where
  data := h.data
  fault := h0
  isr := hi
  inCS := h.section_ h0
  busy := h.busy.2 busy
  status := h.status
  absent := h.irq.absent
  enabled := by
    have hcs := h.section_ h0
    cases hb : s.fg.inSection <;> rw [hb] at hcs
    · simpa using h.irq.outside h0 hcs
    · simpa using h.irq.inside h0 hcs

theorem Kept.fgTurn {a : Prop} {s : State} (h : Kept a s) (h0 : s.fault = 0#8) (hi : s.isr = .inactive)
    (busy : s.fg ≠ .idle) (other : s.fg.setsIrqc = false) (noWrite : a → ∀ n p, s.fg ≠ .running (.uartWrite n) p) :
    FgTurn a s.fg.inSection s where
  toInTurn := h.inv.inTurn h0 hi busy
  saved hcs hasIrq := (h.inv.irq.kept h0 hasIrq (h.inv.section_ h0 ▸ hcs)).resolve_left (by simp [other])
  ready := h.inv.irq.registered_of_ready other
  unready := h.inv.irq.unregistered_of_unready other
  tx ha hr hc := by
    obtain armed | ⟨n, p, writing⟩ | destroying := h.tx ha h0 hr hc
    · exact armed
    · exact absurd writing (noWrite ha n p)
    · simp [destroying, FgState.setsIrqc] at other

theorem FgTurn.weaken {a : Prop} {cs : Bool} {s : State} (h : FgTurn a cs s) : FgTurn False cs s :=
  { h with tx := False.elim }

/-! How a step of FG ends. -/

/-- FG goes on at `g`, or is idle, with `port` as the command port. -/
theorem InTurn.resume {g : FgState} {s : State} (h : InTurn g.inSection s) (port : Port)
    (busy : port.busy = true ↔ g ≠ .idle) (status : port.sts.toNat ≤ 4 ∨ port.sts = 0xFF#8)
    (fg : FgOk { s with fg := g, port := port })
    (kept : g.inSection = true → s.inst.irq.isSome = true → g.setsIrqc = true ∨ s.saved = s.irqc.registered)
    (ready : s.lc = .ready → s.inst.irq.isSome = true → s.irqc.registered = true ∨ g = .running .uartDestroy .destroyEnd)
    (unready : s.lc = .unconstructed ∨ s.lc = .destroyed → s.irqc.registered = false ∨ ∃ i, g = .running i .setupEnd) :
    Inv { s with fg := g, port := port } :=
  have enabled : s.irqc.enabled = (!s.inCS && s.irqc.registered) := by rw [h.inCS]; exact h.enabled
  { h.data with
    busy := busy
    section_ := fun _ => h.inCS
    halted := fun hf => absurd h.fault hf
    code := by simp [h.fault]
    status := status
    fg := fg
    isr := by simp [IsrOk, h.isr]
    irq :=
      { absent := h.absent
        outside := fun _ hcs => by simpa [show s.inCS = false from hcs] using enabled
        inside := fun _ hcs => by simpa [show s.inCS = true from hcs] using enabled
        kept := fun _ hasIrq hcs => kept (h.inCS ▸ hcs) hasIrq
        ready := ready
        unready := unready } }

section
variable {a : Prop} {cs : Bool} {s : State}

theorem FgTurn.resume {g : FgState} (h : FgTurn a g.inSection s) (port : Port) (busy : port.busy = true ↔ g ≠ .idle)
    (status : port.sts.toNat ≤ 4 ∨ port.sts = 0xFF#8) (fg : FgOk { s with fg := g, port := port }) :
    Kept a { s with fg := g, port := port } where
  inv := h.toInTurn.resume port busy status fg (fun hcs hasIrq => .inr (h.saved hcs hasIrq))
    (fun hr hasIrq => .inl (h.ready hr hasIrq)) (fun hl => .inl (h.unready hl))
  tx ha _ hr hc := .inl (h.tx ha hr hc)

/-- R47: the command ends. -/
theorem FgTurn.finishWith (h : FgTurn a false s) (st : Status) (res : Word) (dout : List Byte)
    (code : st.code.toNat ≤ 4 := by decide) : Kept a (finishWith st res dout s) :=
  h.resume (g := .idle) _ (by simp) (.inl code) trivial

theorem FgTurn.finish (h : FgTurn a false s) (st : Status) (res : Word) (code : st.code.toNat ≤ 4 := by decide) :
    Kept a (finish st res s) :=
  h.finishWith st res [] code

/-- R71: the command pauses at the point `p`. -/
theorem FgTurn.pause {i : Instr} {p : FgPoint} (h : FgTurn a p.inSection s) (fits : p.fits i = true)
    (at_ : FgPointOk p s) : Kept a { s with fg := .running i p } :=
  have fg : FgOk { s with fg := .running i p } := ⟨fits, by cases p <;> exact at_⟩
  h.resume (g := .running i p) s.port (by simp [h.busy]) h.status fg

/-- R181, log entry 21: inside a WRITE, R33's clause asks nothing of `tx`. -/
theorem FgTurn.pauseWrite {n : Nat} {p : FgPoint} (h : FgTurn False p.inSection s) (fits : p.fits (.uartWrite n) = true)
    (at_ : FgPointOk p s) : Kept a { s with fg := .running (.uartWrite n) p } :=
  ⟨(h.pause fits at_).inv, fun _ _ _ _ => .inr (.inl ⟨n, p, rfl⟩)⟩

/-- R252: the command raises a fault. The section stays open, and R33's clause asks nothing of a halted block. -/
theorem FgTurn.raise {a' : Prop} (h : FgTurn a' cs s) (c : FaultCode) : Kept a (raiseFault c s) := by
  have code : c.code ≠ 0#8 ∧ c.code.toNat ≤ 12 := by cases c <;> decide
  obtain ⟨nonzero, small⟩ := code
  refine ⟨{ h.data with
    busy := by simp
    section_ := fun h0 => absurd h0 nonzero
    halted := fun _ => ⟨rfl, rfl⟩
    code := small
    status := .inr rfl
    fg := trivial
    isr := trivial
    irq :=
      { absent := h.absent
        outside := fun h0 => absurd h0 nonzero
        inside := fun h0 => absurd h0 nonzero
        kept := fun h0 => absurd h0 nonzero
        ready := fun hr hs => .inl (h.ready hr hs)
        unready := fun hl => .inl (h.unready hl) } }, fun _ h0 => absurd h0 nonzero⟩

theorem FgTurn.onOk {a' : Prop} {α : Type} {r : Except Stop α} {k : α → Outcome} (h : FgTurn a' cs s)
    (ok : ∀ x, r = .ok x → AllNext (Kept a) (k x)) : AllNext (Kept a) (onOk r s k) :=
  .onOk h.raise ok

theorem FgTurn.admitted {k : AdmitKind} {body : Outcome} (h : FgTurn a cs s)
    (allowed : uartAdmit k s.lc = none → AllNext (Kept a) body) : AllNext (Kept a) (admitted k s body) := by
  obtain ⟨hk, e⟩ | ⟨c, -, e⟩ := admitted_cases k s body <;> rw [e]
  · exact allowed hk
  · exact allNext_next.2 (h.raise c)

/-! The operations inside a step. -/

theorem FgTurn.csEnter (h : FgTurn a false s) : FgTurn a true (csEnter s) where
  data := h.data.csEnter
  fault := h.fault
  isr := h.isr
  inCS := rfl
  busy := h.busy
  status := h.status
  absent noIrq := by
    rw [csEnter_inst] at noIrq
    simp [noIrq, h.absent noIrq]
  enabled := by
    rw [csEnter_irqc]
    cases hi : s.inst.irq with
    | none => simp [h.absent hi]
    | some _ => rfl
  saved _ hasIrq := by
    rw [csEnter_registered, csEnter_saved]
    simpa [show s.inst.irq.isSome = true from hasIrq] using h.enabled
  ready := by rw [csEnter_registered]; exact h.ready
  unready := by rw [csEnter_registered]; exact h.unready
  tx := h.tx

theorem FgTurn.csExit (h : FgTurn a true s) : FgTurn a false (csExit s) where
  data := h.data.csExit
  fault := h.fault
  isr := h.isr
  inCS := rfl
  busy := h.busy
  status := h.status
  absent noIrq := by
    rw [csExit_inst] at noIrq
    simp [noIrq, h.absent noIrq]
  enabled := by
    rw [csExit_irqc]
    cases hi : s.inst.irq with
    | none => simp [h.absent hi]
    | some _ => simpa using h.saved rfl (by simp [hi])
  saved hcs := nomatch hcs
  ready := by rw [csExit_registered]; exact h.ready
  unready := by rw [csExit_registered]; exact h.unready
  tx := h.tx

theorem FgTurn.ensureInit (h : FgTurn a cs s) : FgTurn a cs (ensureInit s) := { h with data := { h.data with } }

theorem ensureInit_init (s : State) : (ensureInit s).ctr.init = true := by
  rw [ensureInit_ctr]
  split
  · assumption
  · rfl

theorem FgTurn.setIer {m : Enables} (h : FgTurn a cs s) (tx : a → s.tx.count ≠ 0 → m.txe = true) :
    FgTurn a cs (setIer m s) :=
  { h with data := h.data.setIer m, tx := fun ha _ => tx ha }

theorem FgTurn.setBuf {b : BufId} {c : Buffer} (h : FgTurn a cs s) (hc : (s.buf b).Follows (s.cap b) c)
    (tx : a → b = .tx → c.count ≤ (s.buf b).count) : FgTurn a cs (s.setBuf b c) := by
  have data := h.data.setBuf hc
  cases b
  · exact { h with data := data, tx := fun ha hr h0 => h.tx ha hr (by have := tx ha rfl; simp at this h0; omega) }
  · exact { h with data := data }

/-- A step of SERVICE inside FG's turn. -/
theorem FgTurn.service {t : State} (h : FgTurn a cs s) (f : SvcFrame s t) : FgTurn a cs t := by
  obtain ⟨hinst, hirqc, hlc, hfault, -, hcs, hsaved, hport⟩ := control_eq_iff.1 f.control
  exact
    { data := f.data
      fault := hfault.trans h.fault
      isr := f.isr.trans h.isr
      inCS := hcs.trans h.inCS
      busy := by rw [hport]; exact h.busy
      status := by rw [hport]; exact h.status
      absent := by rw [hinst, hirqc]; exact h.absent
      enabled := by rw [hirqc]; exact h.enabled
      saved := by rw [hinst, hsaved, hirqc]; exact h.saved
      ready := by rw [hlc, hinst, hirqc]; exact h.ready
      unready := by rw [hlc, hirqc]; exact h.unready
      tx := fun ha hr hc => (f.tx hc).2 (h.tx ha (hlc ▸ hr) (f.tx hc).1) }

end

end Sys2Proof.Machine
end

section
/-!
PROOF. Every command keeps the invariant, step by step (40_buffer.md, 41_counter.md, 42_transport.md, 43_handler.md R216): one
lemma for a command's first step and one for each of its points.
-/

namespace Sys2Proof.Machine

variable {a : Prop} {s : State}

/-! BUF.* and CTR.* -/

theorem bufCommand_kept {c : Bool} {b : BufId} {body : Nat → Buffer → Except Stop (Buffer × Word)} (h : FgTurn a false s)
    (follows : ∀ y w, body (s.cap b) (s.buf b) = .ok (y, w) →
      (s.buf b).Follows (s.cap b) y ∧ (a → b = .tx → y.count ≤ (s.buf b).count)) :
    AllNext (Kept a) (bufCommand c b body s) := by
  unfold bufCommand
  split
  · exact allNext_next.2 (h.raise _)
  · refine h.csEnter.onOk fun r hr => allNext_next.2 ?_
    obtain ⟨hf, hc⟩ := follows r.1 r.2 hr
    have set : FgTurn a true ((csEnter s).setBuf b r.1) := by
      cases b
      · exact h.csEnter.setBuf (b := .tx) hf hc
      · exact h.csEnter.setBuf (b := .rx) hf hc
    exact set.csExit.finish .ok _

/-- A BUF.* command that leaves its buffer as it is. -/
theorem bufQuery_kept {c : Bool} {b : BufId} {body : Nat → Buffer → Except Stop (Buffer × Word)} (h : FgTurn a false s)
    (same : ∀ cap x y w, body cap x = .ok (y, w) → y = x) : AllNext (Kept a) (bufCommand c b body s) :=
  bufCommand_kept h fun y w e => by
    rw [same _ _ y w e]
    exact ⟨(h.data.buf b).follows, fun _ _ => le_rfl⟩

theorem execBufClear_kept (b : BufId) (h : FgTurn a false s) : AllNext (Kept a) (execBufClear b s) :=
  bufCommand_kept h fun y w e => by
    cases e
    exact ⟨bufClear_follows (h.data.buf b) (cap_pos h.data.inst b), fun _ _ => Nat.zero_le _⟩

theorem execBufPush_kept (b : BufId) (v : Byte) (h : FgTurn a false s) (noPush : a → b ≠ .tx) :
    AllNext (Kept a) (execBufPush b v s) :=
  bufCommand_kept h fun y w e => by
    cases hp : bufPush (s.cap b) (s.buf b) v <;> rw [hp] at e <;> cases e
    exact ⟨(bufPush_follows (h.data.buf b) hp).1, fun ha e => absurd e (noPush ha)⟩

theorem execBufPop_kept (b : BufId) (h : FgTurn a false s) : AllNext (Kept a) (execBufPop b s) :=
  bufCommand_kept h fun y w e => by
    cases hp : bufPop (s.cap b) (s.buf b) <;> rw [hp] at e <;> cases e
    obtain ⟨follows, count⟩ := bufPop_follows (h.data.buf b) hp
    exact ⟨follows, fun _ _ => by omega⟩

theorem execBufFront_kept (b : BufId) (h : FgTurn a false s) : AllNext (Kept a) (execBufFront b s) :=
  bufQuery_kept h fun cap x y w e => by
    cases hf : bufFront cap x <;> rw [hf] at e <;> cases e
    rfl

theorem ctrPure_kept (r : Except Stop Word) (h : FgTurn a false s) : AllNext (Kept a) (ctrPure r s) :=
  h.onOk fun v _ => allNext_next.2 (h.finish .ok v)

theorem waitStart_kept {i : Instr} (conv : Nat → Word → Except Stop Word) (h : FgTurn a false s)
    (fits : ∀ t base, (FgPoint.waitSample t base).fits i = true) : AllNext (Kept a) (waitStart i conv s) :=
  h.ensureInit.onOk fun _ _ => allNext_next.2 (h.ensureInit.pause (fits _ _) (ensureInit_init s))

theorem waitSample_kept {i : Instr} {t base : Word} (h : FgTurn a false s)
    (fits : (FgPoint.waitSample t base).fits i = true) : AllNext (Kept a) (waitSample i t base s) := by
  simp only [waitSample]
  split
  · exact allNext_next.2 (h.ensureInit.finish .ok _)
  · exact allNext_next.2 (h.ensureInit.pause fits (ensureInit_init s))

/-! SetupCore and DESTROY, which write `irqc` themselves (R174, R191). -/

theorem uartAdmit_lc {k : AdmitKind} {lc : Lifecycle} (h : uartAdmit k lc = none) : lc ≠ .destroyed := by
  rintro rfl
  cases k <;> cases h

theorem setupConfigure_kept {i : Instr} {cfg : LineConfig} (h : FgTurn a false s)
    (fits : (FgPoint.setupCtrl cfg).fits i = true) (alive : s.lc ≠ .destroyed) :
    AllNext (Kept a) (setupConfigure i cfg s) := by
  have opened := h.csEnter
  have turn : InTurn true (devConfigure cfg (divisor s.inst cfg.bitrate) { csEnter s with saved := s.saved }) :=
    { opened.toInTurn with data := { opened.data with } }
  refine allNext_next.2 ⟨?_, fun ha _ hr hc => .inl (h.tx ha hr hc)⟩
  exact turn.resume (g := .running i (.setupCtrl cfg)) s.port (by simp [h.busy]) h.status ⟨fits, alive⟩
    (fun _ _ => .inl rfl) (fun hr hasIrq => .inl (opened.ready hr hasIrq)) (fun hl => .inl (opened.unready hl))

theorem setupStart_kept {k : AdmitKind} {i : Instr} (lc : LineReq) (h : FgTurn a false s)
    (fits : ∀ cfg, (FgPoint.setupCtrl cfg).fits i = true) : AllNext (Kept a) (setupStart k i lc s) := by
  refine h.admitted fun allowed => ?_
  split
  · refine allNext_next.2 (FgTurn.finish ?_ .errConfig _)
    exact
      { h with
        data := { h.data with init := fun hs => h.data.init (.inr (hs.resolve_left nofun)) }
        ready := nofun
        unready := nofun
        tx := fun _ => nofun }
  · exact setupConfigure_kept h (fits _) (uartAdmit_lc allowed)

theorem setupComplete_kept {i : Instr} (cfg : LineConfig) (h : InTurn true s) (fits : FgPoint.setupEnd.fits i = true)
    (alive : s.lc ≠ .destroyed) : AllNext (Kept a) (setupComplete i cfg s) := by
  have tx := bufClear_follows h.data.tx (cap_pos h.data.inst .tx)
  have rx := bufClear_follows h.data.rx (cap_pos h.data.inst .rx)
  have turn : InTurn true (setIer .setup
      { s with
        tx := bufClear s.tx
        rx := bufClear s.rx
        sticky := .zero
        lcfg := cfg
        fp := framePeriod cfg
        irqc := if s.inst.irq.isSome then { s.irqc with registered := true } else s.irqc }) :=
    { h with
      data := { h.data with tx := tx.ok, rx := rx.ok, ier := rfl, init := fun _ => ⟨rfl, rfl⟩ }
      absent := fun (noIrq : s.inst.irq = none) => by simpa [noIrq] using h.absent noIrq
      enabled := by rw [setIer_irqc]; split <;> exact h.enabled }
  have registered (hasIrq : s.inst.irq.isSome = true) :
      (if s.inst.irq.isSome then { s.irqc with registered := true } else s.irqc).registered = true := by rw [if_pos hasIrq]
  refine allNext_next.2 ⟨?_, fun _ _ _ hc => absurd rfl hc⟩
  exact turn.resume (g := .running i .setupEnd) s.port (by simp [h.busy]) h.status
    ⟨fits, alive, rfl, rfl, rfl, registered⟩ (fun _ _ => .inl rfl) (fun _ hasIrq => .inl (registered hasIrq))
    (fun _ => .inr ⟨i, rfl⟩)

theorem setupFinish_kept (h : InTurn true s) (at_ : FgPointOk .setupEnd s) : AllNext (Kept a) (setupFinish s) := by
  obtain ⟨-, tx, rx, empty, registered⟩ := at_
  refine allNext_next.2 (FgTurn.finish ?_ .ok _)
  have kept : (if s.inst.irq.isSome then { s.irqc with enabled := true } else s.irqc).registered = s.irqc.registered := by
    split <;> rfl
  exact
    { h with
      data := { h.data with init := fun _ => ⟨tx, rx⟩ }
      inCS := rfl
      absent := fun (noIrq : s.inst.irq = none) => by simpa [noIrq] using h.absent noIrq
      enabled := by
        dsimp only
        split
        · next hasIrq => simp [registered hasIrq]
        · next noIrq => simp [h.absent (by simpa using noIrq)]
      saved := nofun
      ready := fun _ hasIrq => kept.trans (registered hasIrq)
      unready := nofun
      tx := fun _ _ hc => absurd empty hc }

theorem destroyStart_kept (h : FgTurn a false s) : AllNext (Kept a) (destroyStart s) := by
  refine h.admitted fun allowed => ?_
  have alive : s.lc = .ready ∨ s.lc = .setupFailed := by
    cases hl : s.lc <;> simp [hl, uartAdmit] at allowed ⊢
  have registered : (if s.inst.irq.isSome then ⟨false, false⟩ else s.irqc : IrqCtl) = ⟨false, false⟩ := by
    split
    · rfl
    · next noIrq => exact h.absent (by simpa using noIrq)
  have turn : InTurn true
      { devZero { s with inCS := true, irqc := if s.inst.irq.isSome then ⟨false, false⟩ else s.irqc } with ier := .zero } :=
    { h.toInTurn with
      data :=
        { h.data with
          ier := rfl
          init := fun (hs : s.lc = .ready ∨ _) => by
            rw [registered] at hs
            exact h.data.init (.inl (hs.resolve_right nofun)) }
      inCS := rfl
      absent := fun _ => registered
      enabled := by simp [registered] }
  refine allNext_next.2 ⟨?_, fun _ _ _ _ => .inr (.inr rfl)⟩
  exact turn.resume (g := .running .uartDestroy .destroyEnd) s.port (by simp [h.busy]) h.status
    ⟨rfl, alive, by simp [registered]⟩ (fun _ _ => .inl rfl) (fun _ _ => .inr rfl) (fun _ => .inl (by simp [registered]))

theorem destroyFinish_kept (h : InTurn true s) (at_ : FgPointOk .destroyEnd s) : AllNext (Kept a) (destroyFinish s) := by
  obtain ⟨-, registered⟩ := at_
  refine allNext_next.2 (FgTurn.finish ?_ .ok _)
  exact
    { h with
      data := { h.data with init := fun hs => h.data.init (.inr (hs.resolve_left nofun)) }
      inCS := rfl
      enabled := h.enabled.trans registered.symm
      saved := nofun
      ready := nofun
      unready := fun _ => registered
      tx := fun _ => nofun }

/-! Receiving, CLEAR and the queries. -/

/-- R170: a command that only READY admits. -/
theorem FgTurn.admittedUse {body : Outcome} (h : FgTurn a false s) (ready : s.lc = .ready → AllNext (Kept a) body) :
    AllNext (Kept a) (Machine.admitted .use s body) :=
  h.admitted fun allowed => ready (uartAdmit_use_none.1 allowed)

theorem execUartGet_kept (h : FgTurn a false s) : AllNext (Kept a) (execUartGet s) := by
  refine h.admittedUse fun _ => ?_
  dsimp only
  split
  · exact allNext_next.2 (h.csEnter.csExit.finish .errNoData _)
  · refine h.csEnter.onOk fun r hr => allNext_next.2 ?_
    have take := (bufTake_follows h.data.rx hr).1
    exact (h.csEnter.setBuf (b := .rx) take fun _ => nofun).csExit.finish .ok _

theorem execUartRead_kept (n : Nat) (h : FgTurn a false s) : AllNext (Kept a) (execUartRead n s) := by
  refine h.admittedUse fun _ => ?_
  dsimp only
  split
  · exact allNext_next.2 (h.csEnter.csExit.finish .errNoData _)
  · refine h.csEnter.onOk fun r hr => allNext_next.2 ?_
    have take := bufTakeMany_follows h.data.rx hr
    exact (h.csEnter.setBuf (b := .rx) take fun _ => nofun).csExit.finishWith .ok _ _

theorem FgTurn.withSticky {cs : Bool} (h : FgTurn a cs s) (k : Sticky) : FgTurn a cs { s with sticky := k } :=
  { h with data := { h.data with } }

theorem execUartClear_kept (h : FgTurn a false s) : AllNext (Kept a) (execUartClear s) := by
  refine h.admittedUse fun _ => allNext_next.2 ?_
  have tx := bufClear_follows h.data.tx (cap_pos h.data.inst .tx)
  have rx := bufClear_follows h.data.rx (cap_pos h.data.inst .rx)
  have cleared := (h.csEnter.setBuf (b := .tx) tx fun _ _ => Nat.zero_le _).setBuf (b := .rx) rx fun _ => nofun
  exact (cleared.withSticky .zero).csExit.finish .ok _

theorem execUartFrameperiod_kept (h : FgTurn a false s) : AllNext (Kept a) (execUartFrameperiod s) :=
  h.admittedUse fun _ => allNext_next.2 (h.finish .ok _)

theorem stickyQuery_kept (bit : Sticky → Bool) (h : FgTurn a false s) : AllNext (Kept a) (stickyQuery bit s) :=
  h.admittedUse fun _ => allNext_next.2 (h.csEnter.csExit.finish .ok _)

/-! Sending. -/

/-- Everything PutCore can answer with a value (R178): the fast path, rotate, queue and full. -/
theorem putCore_cases {v : Byte} {f : DevFlags} {r : PutResult} (h : putCore v f s = .ok r) :
    (f.trdy = true ∧ s.tx.count = 0 ∧ ∃ t, devWriteTx v s = .ok t ∧ r = .sent t) ∨
    (f.trdy = true ∧ s.tx.count ≠ 0 ∧ ∃ w b c t, bufTake s.inst.txCap s.tx = .ok (w, b) ∧
      bufPush s.inst.txCap b v = .ok c ∧ devWriteTx w s = .ok t ∧ r = .sent { t with tx := c }) ∨
    (f.trdy = false ∧ s.tx.count < s.inst.txCap ∧ ∃ c, bufPush s.inst.txCap s.tx v = .ok c ∧
      r = .queued { s with tx := c }) ∨
    (f.trdy = false ∧ ¬ s.tx.count < s.inst.txCap ∧ r = .full) := by
  unfold putCore at h
  cases hf : f.trdy with
  | true =>
    by_cases h0 : s.tx.count = 0
    · rw [if_pos (by simp [hf, h0])] at h
      cases hw : devWriteTx v s <;> rw [hw] at h <;> cases h
      exact .inl ⟨rfl, h0, _, rfl, rfl⟩
    · rw [if_neg (by simp [h0]), if_pos hf] at h
      refine .inr (.inl ⟨rfl, h0, ?_⟩)
      split at h
      · cases h
      · next w b ht =>
        split at h <;> cases h
        next t c hw hp => exact ⟨w, b, c, t, ht, hp, hw, rfl⟩
  | false =>
    rw [if_neg (by simp [hf]), if_neg (by simp [hf])] at h
    split at h
    · next room =>
      cases hp : bufPush s.inst.txCap s.tx v <;> rw [hp] at h <;> cases h
      exact .inr (.inr (.inl ⟨rfl, room, _, rfl, rfl⟩))
    · next full => cases h; exact .inr (.inr (.inr ⟨rfl, full, rfl⟩))

/-- R235: a write of the TX register. -/
theorem FgTurn.devWriteTx {cs : Bool} {v : Byte} {t : State} (h : FgTurn a cs s) (hw : devWriteTx v s = .ok t) :
    FgTurn a cs t ∧ t.inst = s.inst ∧ t.lc = s.lc ∧ t.ctr = s.ctr ∧ t.tx = s.tx := by
  obtain ⟨-, e⟩ | ⟨room, e⟩ := devWriteTx_cases hw <;> cases e
  exact ⟨{ h with data := h.data.sendTx v room }, rfl, rfl, rfl, rfl⟩

/-- R178, R184: a write of the TX register beside which `tx` changes, holding no more bytes than before. -/
theorem FgTurn.devWriteTx_setTx {cs : Bool} {v : Byte} {t : State} {c : Buffer} (h : FgTurn a cs s)
    (hw : Machine.devWriteTx v s = .ok t) (follows : s.tx.Follows s.inst.txCap c) (count : c.count ≤ s.tx.count) :
    FgTurn a cs { t with tx := c } ∧ t.inst = s.inst ∧ t.lc = s.lc ∧ t.ctr = s.ctr := by
  obtain ⟨turn, hinst, hlc, hctr, htx⟩ := h.devWriteTx hw
  have follows : (t.buf .tx).Follows (t.cap .tx) c := by rw [buf_tx, cap_tx, htx, hinst]; exact follows
  exact ⟨turn.setBuf follows fun _ _ => by rw [buf_tx, htx]; exact count, hinst, hlc, hctr⟩

/-- R178: PutCore sent a byte; `tx` holds as many as before. -/
theorem FgTurn.putSent {v : Byte} {f : DevFlags} {t : State} (h : FgTurn a true s) (hp : putCore v f s = .ok (.sent t)) :
    FgTurn a true t ∧ t.inst = s.inst ∧ t.lc = s.lc ∧ t.tx.count = s.tx.count := by
  obtain ⟨-, -, u, hw, e⟩ | ⟨-, -, w, b, c, u, ht, hc, hw, e⟩ | ⟨-, -, c, -, e⟩ | ⟨-, -, e⟩ :=
    putCore_cases hp <;> cases e
  · obtain ⟨turn, hinst, hlc, -, htx⟩ := h.devWriteTx hw
    exact ⟨turn, hinst, hlc, by rw [htx]⟩
  · obtain ⟨take, taken⟩ := bufTake_follows h.data.tx ht
    obtain ⟨push, pushed⟩ := bufPush_follows take.ok hc
    have same : c.count = s.tx.count := by omega
    obtain ⟨turn, hinst, hlc, -⟩ := h.devWriteTx_setTx hw (take.trans push) same.le
    exact ⟨turn, hinst, hlc, same⟩

/-- R178: PutCore queued a byte, and TXE is yet to be set. -/
theorem FgTurn.putQueued {v : Byte} {f : DevFlags} {t : State} (h : FgTurn a true s) (hp : putCore v f s = .ok (.queued t)) :
    FgTurn False true t ∧ t.inst = s.inst ∧ t.lc = s.lc ∧ t.tx.count = s.tx.count + 1 := by
  obtain ⟨-, -, u, -, e⟩ | ⟨-, -, w, b, c, u, -, -, -, e⟩ | ⟨-, -, c, hc, e⟩ | ⟨-, -, e⟩ :=
    putCore_cases hp <;> cases e
  obtain ⟨push, pushed⟩ := bufPush_follows h.data.tx hc
  exact ⟨h.weaken.setBuf (b := .tx) push False.elim, rfl, rfl, pushed⟩

/-- R179, R181: with TXE set, R33's clause holds whatever `tx` holds. -/
theorem putArm_kept {a' : Prop} {i : Instr} (h : FgTurn a' true s) (ready : s.lc = .ready)
    (fits : FgPoint.putEnd.fits i = true) : AllNext (Kept a) (putArm i s) :=
  have armed : FgTurn a true (Machine.setIer { s.ier with txe := true } s) :=
    { h with data := h.data.setIer _, tx := fun _ _ _ => rfl }
  allNext_next.2 (armed.pause fits ⟨ready, rfl⟩)

theorem putEnd_kept (h : FgTurn a true s) : AllNext (Kept a) (putEnd s) := allNext_next.2 (h.csExit.finish .ok _)

theorem putStart_kept (v : Byte) (h : FgTurn a false s) : AllNext (Kept a) (putStart v s) :=
  h.admittedUse fun ready => allNext_next.2 (h.csEnter.pause rfl ⟨ready, trdyHolds_devStatus (csEnter s)⟩)

theorem putDecide_kept (v : Byte) (f : DevFlags) (h : FgTurn a true s) (ready : s.lc = .ready) :
    AllNext (Kept a) (putDecide v f s) := by
  refine h.onOk fun r hr => ?_
  cases r with
  | sent t =>
    obtain ⟨turn, -, hlc, -⟩ := h.putSent hr
    exact allNext_next.2 (turn.pause rfl (hlc.trans ready))
  | queued t =>
    obtain ⟨turn, -, hlc, -⟩ := h.putQueued hr
    exact putArm_kept turn (hlc.trans ready) rfl
  | full => exact allNext_next.2 (h.csExit.finish .errFull _)

theorem writeLoop_kept (n : Nat) {rest : List Byte} (h : FgTurn False true s) (ready : s.lc = .ready)
    (room : s.tx.count + rest.length ≤ s.inst.txCap) : AllNext (Kept a) (writeLoop n rest s) := by
  cases rest with
  | nil => exact putArm_kept h ready rfl
  | cons v vs =>
    have got : FgPointOk (.writeGot (v :: vs) (devStatus s)) s := ⟨ready, trdyHolds_devStatus s, by simp, room⟩
    exact allNext_next.2 (h.pauseWrite (p := .writeGot (v :: vs) (devStatus s)) rfl got)

theorem writeStart_kept (n : Nat) (h : FgTurn a false s) : AllNext (Kept a) (writeStart n s) := by
  refine h.admittedUse fun ready => ?_
  dsimp only
  split
  · exact allNext_next.2 (h.csEnter.csExit.finish .errFull _)
  · next room =>
    split
    · exact allNext_next.2 (h.csEnter.csExit.finish .ok _)
    · refine writeLoop_kept n h.csEnter.weaken ready ?_
      have := List.length_take_le n s.port.din
      simp only [csEnter_inst, csEnter_tx, csEnter_port] at room ⊢
      omega

theorem writeDecide_kept (n : Nat) (rest : List Byte) (f : DevFlags) (h : FgTurn False true s) (ready : s.lc = .ready)
    (room : s.tx.count + rest.length ≤ s.inst.txCap) : AllNext (Kept a) (writeDecide n rest f s) := by
  cases rest with
  | nil => exact putArm_kept h ready rfl
  | cons v vs =>
    rw [List.length_cons] at room
    refine h.onOk fun r hr => ?_
    cases r with
    | sent t =>
      obtain ⟨turn, hinst, hlc, count⟩ := h.putSent hr
      have room' : t.tx.count + vs.length ≤ t.inst.txCap := by rw [hinst]; omega
      exact allNext_next.2 (turn.pauseWrite (p := .writeNext vs) rfl ⟨hlc.trans ready, room'⟩)
    | queued t =>
      obtain ⟨turn, hinst, hlc, count⟩ := h.putQueued hr
      exact writeLoop_kept n turn (hlc.trans ready) (by rw [hinst]; omega)
    | full => exact writeLoop_kept n h ready (by omega)

/-! FLUSH. -/

theorem flushStart_kept (h : FgTurn a false s) : AllNext (Kept a) (flushStart s) :=
  h.admittedUse fun ready => h.ensureInit.onOk fun _ _ => h.ensureInit.onOk fun _ _ =>
    allNext_next.2 (h.ensureInit.pause rfl ⟨ready, ensureInit_init s⟩)

theorem flushBase_kept (fpc bound : Word) (h : FgTurn a false s) (ready : s.lc = .ready) :
    AllNext (Kept a) (flushBase fpc bound s) :=
  allNext_next.2 (h.ensureInit.pause rfl ⟨ready, ensureInit_init s⟩)

theorem flushDrain_kept (fpc bound base : Word) (h : FgTurn a false s) (ready : s.lc = .ready) (on : s.ctr.init = true) :
    AllNext (Kept a) (flushDrain fpc bound base s) := by
  simp only [flushDrain]
  split
  · next empty =>
    exact allNext_next.2 (h.csEnter.csExit.ensureInit.pause rfl ⟨ready, ensureInit_init (csExit (csEnter s)), empty⟩)
  · next bytes => exact allNext_next.2 (h.csEnter.pause rfl ⟨ready, on, trdyHolds_devStatus (csEnter s), bytes⟩)

theorem flushSend_kept (fpc bound base : Word) (f : DevFlags) (h : FgTurn a true s) (ready : s.lc = .ready)
    (on : s.ctr.init = true) : AllNext (Kept a) (flushSend fpc bound base f s) := by
  unfold flushSend
  split
  · refine h.onOk fun r hr => h.onOk fun t hw => allNext_next.2 ?_
    obtain ⟨take, taken⟩ := bufTake_follows h.data.tx hr
    obtain ⟨turn, -, hlc, hctr⟩ := h.devWriteTx_setTx hw take (by omega)
    have on' : t.ctr.init = true := by rw [hctr]; exact on
    exact turn.csExit.pause rfl ⟨hlc.trans ready, on'⟩
  · exact allNext_next.2 (h.csExit.pause rfl ⟨ready, on⟩)

theorem flushBound_kept (fpc bound base : Word) (h : FgTurn a false s) (ready : s.lc = .ready) :
    AllNext (Kept a) (flushBound fpc bound base s) := by
  simp only [flushBound]
  split
  · exact allNext_next.2 (h.ensureInit.finish .errStall _)
  · exact allNext_next.2 (h.ensureInit.pause rfl ⟨ready, ensureInit_init s⟩)

theorem flushWait_kept (fpc base : Word) (h : FgTurn a false s) (ready : s.lc = .ready) (empty : s.tx.count = 0) :
    AllNext (Kept a) (flushWait fpc base s) := by
  simp only [flushWait]
  split <;> exact allNext_next.2 (h.ensureInit.pause rfl ⟨ready, ensureInit_init s, empty⟩)

section
variable (fpc bound base : Word) (h : FgTurn a false s) (ready : s.lc = .ready) (on : s.ctr.init = true)
  (empty : s.tx.count = 0)
include h ready on empty

theorem flushIdle_kept : AllNext (Kept a) (flushIdle fpc bound base s) :=
  allNext_next.2 (h.csEnter.csExit.pause rfl ⟨ready, on, empty⟩)

theorem flushEnd_kept : AllNext (Kept a) (flushEnd s) :=
  have cleared := h.csEnter.setIer (m := { s.ier with txe := false }) fun _ hc => absurd empty hc
  allNext_next.2 (cleared.csExit.pause rfl ⟨ready, on, empty⟩)

theorem flushTest_kept (f : DevFlags) : AllNext (Kept a) (flushTest fpc bound base f s) := by
  simp only [flushTest]
  split
  · split
    · exact flushEnd_kept h ready on empty
    · exact allNext_next.2 (h.ensureInit.pause rfl ⟨ready, ensureInit_init s, empty⟩)
  · split
    · exact allNext_next.2 (h.ensureInit.finish .errStall _)
    · exact allNext_next.2 (h.ensureInit.pause rfl ⟨ready, ensureInit_init s, empty⟩)

end

/-! The command form of SERVICE. -/

theorem serviceCommand_kept {p : SvcPoint} (h : FgTurn a true s) (ready : s.lc = .ready) (at_ : SvcOk p s) :
    AllNext (Kept a) (serviceCommand (serviceStep p s)) := by
  have kept := serviceStep_kept h.data (h.data.init (.inl ready)) at_
  cases hr : serviceStep p s with
  | pause t q =>
    rw [hr] at kept
    obtain ⟨frame, next⟩ := kept
    obtain ⟨-, -, hlc, -⟩ := control_eq_iff.1 frame.control
    exact allNext_next.2 ((h.service frame).pause rfl ⟨hlc.trans ready, next⟩)
  | done t =>
    rw [hr] at kept
    exact allNext_next.2 ((h.service kept).csExit.finish .ok _)
  | halt e t => rw [hr] at kept; exact kept.elim

end Sys2Proof.Machine
end

section
/-!
PROOF. The invariant (10_state.md) and R33's clause are kept by every step of every agent; and what FG's turn and the HOST's
turn do (R36, R46 to R48).
-/

namespace Sys2Proof.Machine

variable {a : Prop} {s : State}

/-! FG. -/

/-- R36, R98: the first step of every command. -/
theorem exec_first_kept (i : Instr) (h : FgTurn a false s) (start : AtStart s) (noPush : a → ∀ v, i ≠ .bufPush .tx v) :
    AllNext (Kept a) (exec i s) := by
  have start : s.fg.point = none := start
  cases i with
  | bufClear b => exact execBufClear_kept b h
  | bufPush b v => exact execBufPush_kept b v h fun ha e => noPush ha v (by rw [e])
  | bufPop b => exact execBufPop_kept b h
  | bufFront b => exact execBufFront_kept b h
  | bufEmpty | bufFull | bufSize | bufAvail | bufMaxsize =>
    unfold exec
    refine bufQuery_kept h ?_
    rintro _ _ _ _ ⟨⟩
    rfl
  | ctrNow | ctrTimeout => exact allNext_next.2 (h.ensureInit.finish .ok _)
  | ctrNs2cnt | ctrUs2cnt | ctrMs2cnt | ctrDiff | ctrMeasns | ctrMeasus | ctrMeasms =>
    unfold exec
    exact ctrPure_kept _ h
  | ctrWaitns | ctrWaitus | ctrWaitms =>
    simp only [exec, execCtrWaitns, execCtrWaitus, execCtrWaitms, waitCommand, start]
    exact waitStart_kept _ h fun _ _ => rfl
  | uartSetup lc | uartCreate lc =>
    simp only [exec, execUartSetup, execUartCreate, setupCommand, start]
    exact setupStart_kept lc h fun _ => rfl
  | uartGet => exact execUartGet_kept h
  | uartPut v =>
    simp only [exec, execUartPut, start]
    exact putStart_kept v h
  | uartRead n => exact execUartRead_kept n h
  | uartWrite n =>
    simp only [exec, execUartWrite, start]
    exact writeStart_kept n h
  | uartClear => exact execUartClear_kept h
  | uartFlush =>
    simp only [exec, execUartFlush, start]
    exact flushStart_kept h
  | uartFrameperiod => exact execUartFrameperiod_kept h
  | uartOverrun | uartFraming | uartParity => exact stickyQuery_kept _ h
  | uartDestroy =>
    simp only [exec, execUartDestroy, start]
    exact destroyStart_kept h
  | uartService =>
    simp only [exec, execUartService, start]
    exact h.admittedUse fun ready => serviceCommand_kept (p := .h0) h.csEnter ready trivial

/-- FG is at the point `p` of command `i`, and may take a step. -/
structure AtPoint (a : Prop) (i : Instr) (p : FgPoint) (s : State) : Prop where
  kept : Kept a s
  fault : s.fault = 0#8
  isr : s.isr = .inactive
  fg : s.fg = .running i p

variable {i : Instr} {p : FgPoint}

theorem AtPoint.fits (h : AtPoint a i p s) : p.fits i = true := by
  have := h.kept.inv.fg
  simp only [FgOk, h.fg] at this
  exact this.1

theorem AtPoint.holds (h : AtPoint a i p s) : FgPointOk p s := by
  have := h.kept.inv.fg
  simp only [FgOk, h.fg] at this
  exact this.2

theorem AtPoint.inTurn (h : AtPoint a i p s) : InTurn p.inSection s := by
  have := h.kept.inv.inTurn h.fault h.isr (by simp [h.fg])
  rwa [h.fg] at this

theorem AtPoint.turn (h : AtPoint a i p s) (other : (FgState.running i p).setsIrqc = false)
    (noWrite : a → ∀ n, i ≠ .uartWrite n) : FgTurn a p.inSection s := by
  have := h.kept.fgTurn h.fault h.isr (by simp [h.fg]) (by rw [h.fg]; exact other)
    (fun ha n q e => by rw [h.fg] at e; cases e; exact noWrite ha n rfl)
  rwa [h.fg] at this

/-! R36, R71: the later steps of each command that has points. -/

theorem execUartPut_point_kept {v : Byte} (h : AtPoint a (.uartPut v) p s) : AllNext (Kept a) (execUartPut v s) := by
  have fits := h.fits
  have holds := h.holds
  unfold execUartPut
  rw [h.fg]
  cases p with
  | putGot f => exact putDecide_kept v f (h.turn rfl fun _ => nofun) holds.1
  | putCtrl => exact putArm_kept (h.turn rfl fun _ => nofun) holds rfl
  | putEnd => exact putEnd_kept (h.turn rfl fun _ => nofun)
  | _ => cases fits

theorem execUartWrite_point_kept {n : Nat} (h : AtPoint a (.uartWrite n) p s) :
    AllNext (Kept a) (execUartWrite n s) := by
  have fits := h.fits
  have holds := h.holds
  have unarmed : AtPoint False (.uartWrite n) p s := { h with kept := ⟨h.kept.inv, False.elim⟩ }
  unfold execUartWrite
  rw [h.fg]
  cases p with
  | writeGot rest f =>
    obtain ⟨ready, -, -, room⟩ := holds
    exact writeDecide_kept n rest f (unarmed.turn rfl False.elim) ready room
  | writeNext rest => exact writeLoop_kept n (unarmed.turn rfl False.elim) holds.1 holds.2
  | putEnd =>
    have turn := unarmed.turn rfl False.elim
    exact putEnd_kept { turn with tx := fun _ _ _ => holds.2 }
  | _ => cases fits

theorem execUartFlush_point_kept (h : AtPoint a .uartFlush p s) : AllNext (Kept a) (execUartFlush s) := by
  have fits := h.fits
  have holds := h.holds
  unfold execUartFlush
  rw [h.fg]
  cases p with
  | flushBase fpc bound => exact flushBase_kept fpc bound (h.turn rfl fun _ => nofun) holds.1
  | flushDrain fpc bound base => exact flushDrain_kept fpc bound base (h.turn rfl fun _ => nofun) holds.1 holds.2
  | flushGot fpc bound base f =>
    obtain ⟨ready, on, -⟩ := holds
    exact flushSend_kept fpc bound base f (h.turn rfl fun _ => nofun) ready on
  | flushBound fpc bound base => exact flushBound_kept fpc bound base (h.turn rfl fun _ => nofun) holds.1
  | flushIdle fpc bound base =>
    obtain ⟨ready, on, empty⟩ := holds
    exact flushIdle_kept fpc bound base (h.turn rfl fun _ => nofun) ready on empty
  | flushTest fpc bound base f =>
    obtain ⟨ready, on, empty⟩ := holds
    exact flushTest_kept fpc bound base (h.turn rfl fun _ => nofun) ready on empty f
  | flushWait fpc base =>
    obtain ⟨ready, -, empty⟩ := holds
    exact flushWait_kept fpc base (h.turn rfl fun _ => nofun) ready empty
  | flushEnd =>
    obtain ⟨ready, on, empty⟩ := holds
    exact flushEnd_kept (h.turn rfl fun _ => nofun) ready on empty
  | flushDone =>
    have turn : FgTurn a false s := h.turn rfl fun _ => nofun
    exact allNext_next.2 (turn.finish .ok _)
  | _ => cases fits

theorem exec_point_kept (h : AtPoint a i p s) : AllNext (Kept a) (exec i s) := by
  have fits := h.fits
  cases i with
  | ctrWaitns | ctrWaitus | ctrWaitms =>
    simp only [exec, execCtrWaitns, execCtrWaitus, execCtrWaitms, waitCommand, h.fg]
    cases p with
    | waitSample t base => exact waitSample_kept (h.turn rfl fun _ => nofun) rfl
    | _ => cases fits
  | uartSetup lc | uartCreate lc =>
    simp only [exec, execUartSetup, execUartCreate, setupCommand, h.fg]
    cases p with
    | setupCtrl cfg => exact setupComplete_kept cfg h.inTurn rfl h.holds
    | setupEnd => exact setupFinish_kept h.inTurn h.holds
    | _ => cases fits
  | uartPut v => exact execUartPut_point_kept h
  | uartWrite n => exact execUartWrite_point_kept h
  | uartFlush => exact execUartFlush_point_kept h
  | uartDestroy =>
    simp only [exec, execUartDestroy, h.fg]
    cases p with
    | destroyEnd => exact destroyFinish_kept h.inTurn h.holds
    | _ => cases fits
  | uartService =>
    simp only [exec, execUartService, h.fg]
    cases p with
    | svc q => exact serviceCommand_kept (h.turn rfl fun _ => nofun) h.holds.1 h.holds.2
    | _ => cases fits
  | _ => cases p <;> cases fits

theorem fgStep_kept (h : Kept a s) (noPush : a → ∀ v, fetchCommand s ≠ .ok (.bufPush .tx v)) :
    AllNext (Kept a) (fgStep s) := by
  unfold fgStep
  split
  · exact allNext_next.2 h
  · next free =>
    simp only [ne_eq, not_or, not_not] at free
    obtain ⟨h0, inactive⟩ := free
    split
    · exact allNext_next.2 h
    · next presented =>
      have turn : FgTurn a false s := by
        have := h.fgTurn h0 inactive (by simp [presented]) (by simp [presented, FgState.setsIrqc]) (by simp [presented])
        rwa [presented] at this
      split
      · exact allNext_next.2 (turn.raise _)
      · next fetched =>
        refine exec_first_kept _ turn (by simp [AtStart, presented]) fun ha v e => noPush ha v ?_
        rw [fetched, e]
    · next running => exact exec_point_kept ⟨h, h0, inactive, running⟩

/-! Every agent. -/

theorem takeTurn_kept (e : Event) (h : Kept a s) (noPush : a → ∀ v, fetchCommand s ≠ .ok (.bufPush .tx v)) :
    AllNext (Kept a) (takeTurn e s) := by
  cases e with
  | present cmd opa opb din => exact hostStep_kept cmd opa opb din h
  | fg => exact fgStep_kept h noPush
  | isr => exact isrStep_kept h
  | rxArrive v p f => exact allNext_next.2 (h.quiet (rxArrive_quiet v p f s))
  | txLoad => exact allNext_next.2 (h.quiet (txLoad_quiet s))
  | txDone => exact allNext_next.2 (h.quiet (txDone_quiet s))
  | tick => exact allNext_next.2 (h.quiet (ctrTick_quiet s))

theorem fetchCommand_nextTurn (s : State) : fetchCommand (nextTurn s).2 = fetchCommand s := by
  unfold nextTurn
  split <;> rfl

/-- R70: one step, the turn of one agent. -/
theorem step_kept (h : Kept a s) (noPush : a → ∀ v, fetchCommand s ≠ .ok (.bufPush .tx v)) :
    AllNext (Kept a) (step s) := by
  unfold step
  split
  · exact takeTurn_kept _ (h.quiet (nextTurn_quiet s)) (by rw [fetchCommand_nextTurn]; exact noPush)
  · simp

/-! The turns. -/

/-- R70: the turn taken is the one the schedule lists first. -/
theorem step_of_sched {e : Event} {rest : List Event} (wf : s.inst.wf = true) (sched : s.sched = e :: rest) :
    step s = takeTurn e { s with sched := rest } := by
  simp [step, wf, nextTurn, sched]

/-- R98: FG's turn where a command is presented. -/
theorem fgStep_presented (h0 : s.fault = 0#8) (inactive : s.isr = .inactive) (presented : s.fg = .presented)
    (fetched : fetchCommand s = .ok i) : fgStep s = exec i s := by
  simp only [fgStep, h0, inactive, ne_eq, not_true_eq_false, or_self, if_false, presented, fetched]

/-- R36: FG's turn where a command is in progress. -/
theorem fgStep_running (h0 : s.fault = 0#8) (inactive : s.isr = .inactive) (running : s.fg = .running i p) :
    fgStep s = exec i s := by
  simp only [fgStep, h0, inactive, ne_eq, not_true_eq_false, or_self, if_false, running]

/-! The statements. -/

/-- Settles O16: a step is the turn of one agent, and each agent's turn keeps the invariant. -/
theorem stepKeepsInv : Obligations.StepKeepsInv := fun _ t h hs =>
  (step_kept (a := False) ⟨h, False.elim⟩ False.elim t hs).inv

/-- Settles O57: `tx` gains bytes only in a WRITE, which the clause excepts, in a PUT, which sets TXE with them, and in a
BUF.PUSH; TXE is cleared only where `tx` is empty and in a DESTROY, which the clause excepts. -/
theorem txInterruptFollowsTheBuffer : Obligations.TxInterruptFollowsTheBuffer := fun _ t h armed noPush hs =>
  (step_kept (a := True) ⟨h, fun _ => armed⟩ (fun _ => noPush) t hs).tx trivial

/-- Settles O5: the turn is `fgStep`, which is `exec` where FG may step and has a command. -/
theorem stepRunsTheDecodedCommand : Obligations.StepRunsTheDecodedCommand := fun s rest wf sched h0 inactive =>
  have turn : step s = fgStep { s with sched := rest } := step_of_sched wf sched
  ⟨fun _ presented fetched => turn.trans (fgStep_presented h0 inactive presented fetched),
    fun _ _ running => turn.trans (fgStep_running h0 inactive running)⟩

/-- Settles O7: the turn is `hostStep`, legal exactly where the port is free and no fault is recorded. -/
theorem hostPresentsOneCommand : Obligations.HostPresentsOneCommand := fun s cmd opa opb din rest wf sched =>
  have turn : step s = hostStep cmd opa opb din { s with sched := rest } := step_of_sched wf sched
  ⟨fun free h0 => turn.trans (if_neg (by simp [free, h0])), fun illegal => turn.trans (if_pos (by simpa using illegal))⟩

end Sys2Proof.Machine
end

section
/-!
PROOF. The TX order law (20_memory.md R75, 42_transport.md R193): what each agent's turn does to the bytes accepted for
transmission, on the line, in the device and in `tx`.
-/

namespace Sys2Proof.Machine

/-! What `tx` holds after a buffer primitive (R22, R122 to R124). -/

section
variable {cap : Nat} {b c : Buffer} {v : Byte}

theorem contents_of_empty (h : b.count = 0) : b.contents cap = [] :=
  List.eq_nil_of_length_eq_zero ((contents_length cap b).trans h)

theorem bufPush_contents (live : b.Live cap) (hp : bufPush cap b v = .ok c) : c.contents cap = b.contents cap ++ [v] := by
  obtain ⟨-, e⟩ | ⟨notFull, -, e⟩ | ⟨-, -, e⟩ := bufPush_cases hp <;> cases e
  exact contents_push live notFull v

theorem bufTake_contents (live : b.Live cap) (ht : bufTake cap b = .ok (v, c)) : b.contents cap = v :: c.contents cap := by
  obtain ⟨-, e⟩ | ⟨notEmpty, -, e⟩ | ⟨-, -, e⟩ := bufTake_cases ht <;> cases e
  exact contents_pop live notEmpty

/-- R22: a byte can be taken from an initialized buffer that is not empty. -/
theorem bufTake_live (live : b.Live cap) (notEmpty : b.count ≠ 0) : ∃ v c, bufTake cap b = .ok (v, c) := by
  obtain ⟨e, -⟩ | ⟨-, -, e⟩ | ⟨-, out, -⟩ := bufTake_cases (cap := cap) (b := b) rfl
  · exact absurd e notEmpty
  · exact ⟨_, _, e⟩
  · exact absurd live.head_lt out

end

/-! The stream under a device write. -/

/-- Every next state of the outcome has the stream of `s`. -/
abbrev KeepsTx (s : State) (o : Outcome) : Prop := AllNext (fun t => t.txStream = s.txStream) o

/-- Every next state of the outcome has the stream of `s` with `l` behind it. -/
abbrev AppendsTx (l : List Byte) (s : State) (o : Outcome) : Prop := AllNext (fun t => t.txStream = s.txStream ++ l) o

variable {s : State}

/-- R235: a byte `v` goes to the device and `tx` is left as `b`: the stream gains what the two hold beyond `tx` before. -/
theorem devWriteTx_txStream {v : Byte} {b : Buffer} {l : List Byte} {t : State} (hw : devWriteTx v s = .ok t)
    (gain : v :: b.contents s.inst.txCap = s.tx.contents s.inst.txCap ++ l) :
    ({ t with tx := b } : State).txStream = s.txStream ++ l := by
  obtain ⟨-, e⟩ | ⟨-, e⟩ := devWriteTx_cases hw <;> cases e
  simp only [State.txStream, List.append_assoc, List.singleton_append, gain]

/-- R184, R214: the oldest byte of `tx` goes to the device. -/
theorem bufTake_devWriteTx_txStream {v : Byte} {b : Buffer} {t : State} (live : s.tx.Live s.inst.txCap)
    (ht : bufTake s.inst.txCap s.tx = .ok (v, b)) (hw : devWriteTx v s = .ok t) :
    ({ t with tx := b } : State).txStream = s.txStream := by
  rw [devWriteTx_txStream (l := []) hw (by rw [List.append_nil, bufTake_contents live ht]), List.append_nil]

/-- R178, R193: PutCore raises no fault, and what it accepts goes behind every byte accepted before, on each of its paths. -/
theorem putCore_appends {f : DevFlags} (v : Byte) (ok : s.tx.Ok s.inst.txCap) (init : s.tx.init = true)
    (trdy : TrdyHolds f s) :
    ∃ r, putCore v f s = .ok r ∧
      (r.state s).txStream = s.txStream ++ if f.trdy = true ∨ s.tx.count < s.inst.txCap then [v] else [] := by
  have live := ok.live init
  have count_le := live.count_le
  cases hf : f.trdy with
  | true =>
    have write (w : Byte) := devWriteTx_ready w trdy hf
    rw [if_pos (.inl rfl)]
    by_cases empty : s.tx.count = 0
    · exact ⟨.sent _, by simp only [putCore, hf, empty, decide_true, Bool.and_self, if_true, write]; rfl,
        devWriteTx_txStream (b := s.tx) (write v) (by rw [contents_of_empty empty]; rfl)⟩
    · obtain ⟨w, b, ht⟩ := bufTake_live live empty
      obtain ⟨follows, taken⟩ := bufTake_follows ok ht
      have rest := follows.ok.live (follows.init init)
      obtain ⟨c, hp⟩ := bufPush_live v rest (by omega)
      refine ⟨.sent { s with tx := c, dev := { s.dev with txq := s.dev.txq ++ [w] } },
        by simp [putCore, hf, empty, ht, hp, write], devWriteTx_txStream (b := c) (write w) ?_⟩
      rw [bufPush_contents rest hp, bufTake_contents live ht, List.cons_append]
  | false =>
    by_cases room : s.tx.count < s.inst.txCap
    · obtain ⟨c, hp⟩ := bufPush_live v live room.ne
      refine ⟨.queued _, by simp only [putCore, hf, room, hp]; rfl, ?_⟩
      rw [if_pos (.inr room)]
      simp only [PutResult.state, State.txStream, bufPush_contents live hp, List.append_assoc]
    · exact ⟨.full, by simp [putCore, hf, room], by simp [PutResult.state, room]⟩

/-! SERVICE (R211 to R214), and the ISR (R215). -/

section
variable (live : s.tx.Live s.inst.txCap)
include live

theorem serviceRefill_txStream (f : DevFlags) : (serviceRefill f s).state.txStream = s.txStream := by
  unfold serviceRefill
  split
  · split
    · rfl
    · split
      · rfl
      · next ht =>
        split
        · rfl
        · next hw => exact bufTake_devWriteTx_txStream live ht hw
  · rfl

theorem serviceLoop_txStream (f : DevFlags) (k : Nat) : (serviceLoop f k s).state.txStream = s.txStream := by
  unfold serviceLoop
  split
  · split <;> rfl
  · exact serviceRefill_txStream live f

theorem serviceDrain_txStream (f : DevFlags) : (serviceDrain f s).state.txStream = s.txStream := by
  unfold serviceDrain
  split
  · exact serviceLoop_txStream live f 0
  · exact serviceRefill_txStream live f

omit live in
/-- R213: the deposit writes `rx` or `sticky`. -/
theorem serviceDeposit_frame {v : Byte} {t : State} (h : serviceDeposit v s = .ok t) :
    t = { s with rx := t.rx, sticky := t.sticky } := by
  unfold serviceDeposit at h
  split at h
  · cases h; rfl
  · cases hp : bufPush s.inst.rxCap s.rx v <;> rw [hp] at h <;> cases h
    rfl

theorem serviceStep_txStream (p : SvcPoint) : (serviceStep p s).state.txStream = s.txStream := by
  cases p with
  | h0 | h4 => rfl
  | h1 f =>
    simp only [serviceStep]
    split
    · rfl
    · exact serviceDrain_txStream live f
  | h2 f => exact serviceDrain_txStream live f
  | h2read f k =>
    obtain ⟨-, e⟩ | ⟨v, q, -, e⟩ := devReadRx_cases (s := s) rfl <;> simp only [serviceStep, e] <;> rfl
  | h2push f k v =>
    simp only [serviceStep]
    split
    · rfl
    · next t hd =>
      rw [serviceDeposit_frame hd]
      exact serviceLoop_txStream (s := { s with rx := t.rx, sticky := t.sticky }) live f (k + 1)
  | h3 f => exact serviceRefill_txStream live f

end

theorem serviceIsr_keepsTx {r : SvcResult} (same : r.state.txStream = s.txStream) : KeepsTx s (serviceIsr r) := by
  cases r with
  | pause t p => exact allNext_next.2 same
  | done t => exact allNext_next.2 same
  | halt e t => exact .stopped e fun _ => same

theorem serviceCommand_keepsTx {r : SvcResult} (same : r.state.txStream = s.txStream) : KeepsTx s (serviceCommand r) := by
  cases r with
  | pause t p => exact allNext_next.2 same
  | done t => exact allNext_next.2 same
  | halt e t => exact .stopped e fun _ => same

theorem isrStep_keepsTx (h : Inv s) : KeepsTx s (isrStep s) := by
  unfold isrStep
  split
  · exact allNext_next.2 rfl
  · split
    · split <;> exact allNext_next.2 rfl
    · next p active =>
      have isr := h.isr
      simp only [IsrOk, active] at isr
      obtain ⟨-, -, registered, -⟩ := isr
      exact serviceIsr_keepsTx (serviceStep_txStream (h.tx.live (h.init (.inr registered)).1) p)

/-! DEV, CTR and the HOST (R48, R240 to R242). -/

theorem rxArrive_txStream (v : Byte) (p f : Bool) (s : State) : (rxArrive v p f s).txStream = s.txStream := by
  unfold rxArrive
  split <;> rfl

theorem txLoad_txStream (s : State) : (txLoad s).txStream = s.txStream := by
  unfold txLoad
  split
  · next none more => simp [State.txStream, none, more]
  · rfl

theorem txDone_txStream (s : State) : (txDone s).txStream = s.txStream := by
  unfold txDone
  split
  · next sent => simp [State.txStream, sent]
  · rfl

theorem ctrTick_txStream (s : State) : (ctrTick s).txStream = s.txStream := by
  unfold ctrTick
  split <;> rfl

/-- R75: the turn of an agent other than FG. -/
theorem takeTurn_keepsTx {e : Event} (other : e ≠ .fg) (h : Inv s) : KeepsTx s (takeTurn e s) := by
  cases e with
  | present cmd opa opb din =>
    simp only [takeTurn, hostStep]
    split
    · exact allNext_refused _
    · exact allNext_next.2 rfl
  | fg => exact absurd rfl other
  | isr => exact isrStep_keepsTx h
  | rxArrive v p f => exact allNext_next.2 (rxArrive_txStream v p f s)
  | txLoad => exact allNext_next.2 (txLoad_txStream s)
  | txDone => exact allNext_next.2 (txDone_txStream s)
  | tick => exact allNext_next.2 (ctrTick_txStream s)

/-! The points of FG at which a command may change the stream. -/

/-- PUT's and WRITE's decision, which accepts a byte (R178), and the clearing of `tx` by SetupCore (R174). -/
def FgPoint.editsStream : FgPoint → Bool
  | .putGot _ | .writeGot _ _ | .setupCtrl _ => true
  | _ => false

/-- FG is not at a point at which its command may change the stream. -/
def State.TxQuiet (s : State) : Prop := ∀ p, s.fg.point = some p → p.editsStream = false

theorem accepts_of_txQuiet (quiet : s.TxQuiet) : s.accepts = [] := by
  unfold State.accepts
  split
  · next e => cases quiet _ (by rw [e]; rfl)
  · next e => cases quiet _ (by rw [e]; rfl)
  · rfl

/-- R38: those points are inside critical sections. -/
theorem inSection_of_editsStream {p : FgPoint} (edits : p.editsStream = true) : p.inSection = true := by
  cases p with
  | putGot | writeGot | setupCtrl => rfl
  | _ => cases edits

theorem txQuiet_of_outside (out : s.fg.inSection = false) : s.TxQuiet := by
  intro p hp
  by_contra edits
  have inside := inSection_of_editsStream (by simpa using edits)
  cases hs : s.fg with
  | idle | presented => rw [hs] at hp; cases hp
  | running i q =>
    rw [hs] at hp out
    cases hp
    cases out.symm.trans inside

/-- R72, R252: where FG may not take a step, it is at none of them. -/
theorem Inv.txQuiet_of_blocked (h : Inv s) (blocked : s.fault ≠ 0#8 ∨ s.isr ≠ .inactive) : s.TxQuiet := by
  apply txQuiet_of_outside
  by_cases h0 : s.fault = 0#8
  · have isr := h.isr
    cases active : s.isr with
    | inactive => exact absurd active (blocked.resolve_left (not_not.2 h0))
    | active p =>
      simp only [IsrOk, active] at isr
      obtain ⟨-, outside, -⟩ := isr
      exact (h.section_ h0).symm.trans outside
  · rw [(h.halted h0).1]; rfl

theorem Inv.tx_live_of_ready (h : Inv s) (ready : s.lc = .ready) : s.tx.Live s.inst.txCap :=
  h.tx.live (h.init (.inl ready)).1

theorem Inv.atPoint (h : Inv s) {p : FgPoint} (hp : s.fg.point = some p) : FgPointOk p s := by
  have fg := h.fg
  cases hs : s.fg with
  | idle | presented => rw [hs] at hp; cases hp
  | running i q =>
    rw [hs] at hp
    cases hp
    simp only [FgOk, hs] at fg
    exact fg.2

/-! The commands that leave the stream alone, by the operation they share. -/

theorem admitted_keepsTx {k : AdmitKind} {body : Outcome} (hb : KeepsTx s body) : KeepsTx s (admitted k s body) :=
  .admitted (fun _ => rfl) hb

theorem onOk_keepsTx {α : Type} {r : Except Stop α} {k : α → Outcome} (ok : ∀ a, r = .ok a → KeepsTx s (k a)) :
    KeepsTx s (onOk r s k) :=
  .onOk (fun _ => rfl) ok

theorem bufCommand_keepsTx {c : Bool} {b : BufId} {body : Nat → Buffer → Except Stop (Buffer × Word)}
    (same : b = .tx → ∀ cap x y w, body cap x = .ok (y, w) → y = x) : KeepsTx s (bufCommand c b body s) := by
  unfold bufCommand
  split
  · exact allNext_next.2 rfl
  · refine .onOk (fun _ => rfl) fun r hr => allNext_next.2 ?_
    cases b with
    | tx =>
      have unchanged : r.1 = s.tx := same rfl _ _ _ _ hr
      rw [unchanged]
      rfl
    | rx => rfl

theorem ctrPure_keepsTx (r : Except Stop Word) : KeepsTx s (ctrPure r s) := onOk_keepsTx fun _ _ => allNext_next.2 rfl

theorem waitCommand_keepsTx (i : Instr) (conv : Nat → Word → Except Stop Word) : KeepsTx s (waitCommand i conv s) := by
  unfold waitCommand
  split
  · simp only [waitSample]
    split <;> exact allNext_next.2 rfl
  · exact .onOk (fun _ => rfl) fun _ _ => allNext_next.2 rfl

theorem setupCommand_keepsTx (k : AdmitKind) (i : Instr) (lc : LineReq) (quiet : s.TxQuiet) :
    KeepsTx s (setupCommand k i lc s) := by
  unfold setupCommand
  split
  · next hp => cases quiet _ hp
  · exact allNext_next.2 rfl
  · refine admitted_keepsTx ?_
    split <;> exact allNext_next.2 rfl

theorem execUartGet_keepsTx (s : State) : KeepsTx s (execUartGet s) := by
  refine admitted_keepsTx ?_
  dsimp only
  split
  · exact allNext_next.2 rfl
  · exact .onOk (fun _ => rfl) fun _ _ => allNext_next.2 rfl

theorem execUartRead_keepsTx (n : Nat) (s : State) : KeepsTx s (execUartRead n s) := by
  refine admitted_keepsTx ?_
  dsimp only
  split
  · exact allNext_next.2 rfl
  · exact .onOk (fun _ => rfl) fun _ _ => allNext_next.2 rfl

theorem execUartDestroy_keepsTx (s : State) : KeepsTx s (execUartDestroy s) := by
  unfold execUartDestroy
  split
  · exact allNext_next.2 rfl
  · exact admitted_keepsTx (allNext_next.2 rfl)

theorem execUartService_keepsTx (h : Inv s) : KeepsTx s (execUartService s) := by
  unfold execUartService
  split
  · next p hp =>
    obtain ⟨ready, -⟩ := h.atPoint hp
    exact serviceCommand_keepsTx (serviceStep_txStream (h.tx_live_of_ready ready) p)
  · exact admitted_keepsTx (allNext_next.2 rfl)

/-! FLUSH, which moves bytes from `tx` to the device (R184). -/

theorem flushStart_keepsTx (s : State) : KeepsTx s (flushStart s) :=
  admitted_keepsTx (.onOk (fun _ => rfl) fun _ _ => .onOk (fun _ => rfl) fun _ _ => allNext_next.2 rfl)

theorem flushSend_keepsTx (fpc bound base : Word) (f : DevFlags) (live : s.tx.Live s.inst.txCap) :
    KeepsTx s (flushSend fpc bound base f s) := by
  unfold flushSend
  split
  · refine onOk_keepsTx fun r hr => onOk_keepsTx fun t hw => allNext_next.2 ?_
    exact (bufTake_devWriteTx_txStream live hr hw :)
  · exact allNext_next.2 rfl

theorem flushTest_keepsTx (fpc bound base : Word) (f : DevFlags) (s : State) :
    KeepsTx s (flushTest fpc bound base f s) := by
  simp only [flushTest]
  split
  · split <;> exact allNext_next.2 rfl
  · split <;> exact allNext_next.2 rfl

theorem execUartFlush_keepsTx (h : Inv s) : KeepsTx s (execUartFlush s) := by
  unfold execUartFlush
  cases hp : s.fg.point with
  | none => exact flushStart_keepsTx s
  | some p =>
    cases p with
    | flushBase | flushIdle | flushEnd | flushDone => exact allNext_next.2 rfl
    | flushDrain | flushBound | flushWait =>
      simp only [flushDrain, flushBound, flushWait]
      split <;> exact allNext_next.2 rfl
    | flushGot fpc bound base f =>
      obtain ⟨ready, -⟩ := h.atPoint hp
      exact flushSend_keepsTx fpc bound base f (h.tx_live_of_ready ready)
    | flushTest fpc bound base f => exact flushTest_keepsTx fpc bound base f s
    | _ => exact flushStart_keepsTx s

/-! PUT and WRITE (R178, R179, R181). -/

theorem putArm_keepsTx (i : Instr) (s : State) : KeepsTx s (putArm i s) := allNext_next.2 rfl

theorem putEnd_keepsTx (s : State) : KeepsTx s (putEnd s) := allNext_next.2 rfl

theorem writeLoop_keepsTx (n : Nat) (rest : List Byte) (s : State) : KeepsTx s (writeLoop n rest s) := by
  cases rest <;> exact allNext_next.2 rfl

theorem writeStart_keepsTx (n : Nat) (s : State) : KeepsTx s (writeStart n s) := by
  refine admitted_keepsTx ?_
  dsimp only
  split
  · exact allNext_next.2 rfl
  · split
    · exact allNext_next.2 rfl
    · exact writeLoop_keepsTx n _ (csEnter s)

theorem execUartPut_keepsTx (v : Byte) (quiet : s.TxQuiet) : KeepsTx s (execUartPut v s) := by
  unfold execUartPut
  split
  · next hp => cases quiet _ hp
  · exact putArm_keepsTx _ s
  · exact putEnd_keepsTx s
  · exact admitted_keepsTx (allNext_next.2 rfl)

theorem execUartWrite_keepsTx (n : Nat) (quiet : s.TxQuiet) : KeepsTx s (execUartWrite n s) := by
  unfold execUartWrite
  split
  · next hp => cases quiet _ hp
  · exact writeLoop_keepsTx n _ s
  · exact putEnd_keepsTx s
  · exact writeStart_keepsTx n s

section
variable (ok : s.tx.Ok s.inst.txCap) (init : s.tx.init = true) {f : DevFlags} (trdy : TrdyHolds f s)
include ok init trdy

theorem putDecide_appends (v : Byte) :
    AppendsTx (if f.trdy = true ∨ s.tx.count < s.inst.txCap then [v] else []) s (putDecide v f s) := by
  obtain ⟨r, hr, gain⟩ := putCore_appends v ok init trdy
  unfold AppendsTx
  rw [putDecide, hr, onOk_ok, ← gain]
  cases r <;> exact allNext_next.2 rfl

theorem writeDecide_appends (n : Nat) (v : Byte) {vs : List Byte} (room : s.tx.count + (v :: vs).length ≤ s.inst.txCap) :
    AppendsTx [v] s (writeDecide n (v :: vs) f s) := by
  obtain ⟨r, hr, gain⟩ := putCore_appends v ok init trdy
  rw [List.length_cons] at room
  rw [if_pos (.inr (by omega))] at gain
  unfold AppendsTx
  rw [writeDecide, hr, onOk_ok, ← gain]
  cases r with
  | sent t => exact allNext_next.2 rfl
  | queued t => exact writeLoop_keepsTx n vs t
  | full => exact writeLoop_keepsTx n vs s

end

/-! FG's turn. -/

/-- R193: a command that does not edit `tx`, at a point at which it does not change the stream. -/
theorem exec_keepsTx (i : Instr) (h : Inv s) (noEdit : editsTx i = false) (quiet : s.TxQuiet) : KeepsTx s (exec i s) := by
  unfold exec
  cases i with
  | bufClear b | bufPush b | bufPop b =>
    refine bufCommand_keepsTx ?_
    rintro rfl
    cases noEdit
  | bufFront b =>
    refine bufCommand_keepsTx fun _ cap x y w e => ?_
    cases hf : bufFront cap x <;> rw [hf] at e <;> cases e
    rfl
  | bufEmpty | bufFull | bufSize | bufAvail | bufMaxsize =>
    refine bufCommand_keepsTx fun _ cap x y w e => ?_
    cases e
    rfl
  | ctrNow | ctrTimeout => exact allNext_next.2 rfl
  | ctrNs2cnt | ctrUs2cnt | ctrMs2cnt | ctrDiff | ctrMeasns | ctrMeasus | ctrMeasms => exact ctrPure_keepsTx _
  | ctrWaitns | ctrWaitus | ctrWaitms => exact waitCommand_keepsTx _ _
  | uartSetup | uartCreate => exact setupCommand_keepsTx _ _ _ quiet
  | uartGet => exact execUartGet_keepsTx s
  | uartPut v => exact execUartPut_keepsTx v quiet
  | uartRead n => exact execUartRead_keepsTx n s
  | uartWrite n => exact execUartWrite_keepsTx n quiet
  | uartClear => cases noEdit
  | uartFlush => exact execUartFlush_keepsTx h
  | uartFrameperiod | uartOverrun | uartFraming | uartParity => exact admitted_keepsTx (allNext_next.2 rfl)
  | uartDestroy => exact execUartDestroy_keepsTx s
  | uartService => exact execUartService_keepsTx h

/-- R36: the commands that edit `tx` end in one step. -/
theorem editsTx_of_fits {i : Instr} {p : FgPoint} (fits : p.fits i = true) : editsTx i = false := by
  cases i with
  | bufClear | bufPush | bufPop | uartClear => cases p <;> cases fits
  | _ => rfl

/-- R193: a command in progress, outside SetupCore's clearing of `tx`. -/
theorem exec_running_appends {i : Instr} {p : FgPoint} (h : Inv s) (running : s.fg = .running i p)
    (noSetup : ∀ cfg, p ≠ .setupCtrl cfg) : AppendsTx s.accepts s (exec i s) := by
  have fg := h.fg
  simp only [FgOk, running] at fg
  obtain ⟨fits, at_⟩ := fg
  have point : s.fg.point = some p := by rw [running]; rfl
  by_cases edits : p.editsStream = true
  · cases p with
    | putGot f =>
      cases i with
      | uartPut v =>
        obtain ⟨ready, trdy⟩ := at_
        simp only [State.accepts, running, exec, execUartPut]
        exact putDecide_appends h.tx (h.init (.inl ready)).1 trdy v
      | _ => cases fits
    | writeGot rest f =>
      cases i with
      | uartWrite n =>
        obtain ⟨ready, trdy, more, room⟩ := at_
        obtain ⟨v, vs, rfl⟩ := List.exists_cons_of_ne_nil more
        simp only [State.accepts, running, exec, execUartWrite]
        exact writeDecide_appends h.tx (h.init (.inl ready)).1 trdy n v room
      | _ => cases fits
    | setupCtrl cfg => exact absurd rfl (noSetup cfg)
    | _ => cases edits
  · have quiet : s.TxQuiet := fun q hq => by
      rw [point] at hq
      cases hq
      simpa using edits
    unfold AppendsTx
    rw [accepts_of_txQuiet quiet, List.append_nil]
    exact exec_keepsTx i h (editsTx_of_fits fits) quiet

/-- R193: FG's turn. -/
theorem fgStep_appends (h : Inv s) (noEdit : ∀ i, s.fg = .presented → fetchCommand s = .ok i → editsTx i = false)
    (noSetup : ∀ i cfg, s.fg ≠ .running i (.setupCtrl cfg)) : AppendsTx s.accepts s (fgStep s) := by
  have keeps {o : Outcome} (quiet : s.TxQuiet) (ho : KeepsTx s o) : AppendsTx s.accepts s o := by
    unfold AppendsTx
    rwa [accepts_of_txQuiet quiet, List.append_nil]
  unfold fgStep
  split
  · next blocked => exact keeps (h.txQuiet_of_blocked blocked) (allNext_next.2 rfl)
  · split
    · next idle => exact keeps (txQuiet_of_outside (by rw [idle]; rfl)) (allNext_next.2 rfl)
    · next presented =>
      have quiet : s.TxQuiet := txQuiet_of_outside (by rw [presented]; rfl)
      refine keeps quiet ?_
      split
      · exact allNext_next.2 rfl
      · next fetched => exact exec_keepsTx _ h (noEdit _ presented fetched) quiet
    · next running => exact exec_running_appends h running fun cfg e => noSetup _ cfg (e ▸ running)

/-! The statement. -/

/-- R70: taking the next turn writes the schedule and the draws alone. -/
theorem nextTurn_state (s : State) :
    (nextTurn s).2 = { s with sched := (nextTurn s).2.sched, draws := (nextTurn s).2.draws } := by
  unfold nextTurn
  split <;> rfl

/-- Settles O56: FG accepts bytes at PUT's and WRITE's decision, behind every byte accepted before; SERVICE, FLUSH and the
device only move the oldest byte of one part of the sequence to the end of the part before it. -/
theorem transmitOrderIsKept : Obligations.TransmitOrderIsKept := by
  intro s t h hs
  have inv : Inv (nextTurn s).2 := (Kept.quiet (a := False) ⟨h, False.elim⟩ (nextTurn_quiet s)).inv
  rw [step, if_pos h.inst] at hs
  rw [nextTurn_state] at hs inv
  refine ⟨fun other => takeTurn_keepsTx other inv t hs, fun fg noEdit noSetup => ?_⟩
  rw [fg] at hs
  exact fgStep_appends inv noEdit noSetup t hs

end Sys2Proof.Machine
end

section
/-!
PROOF. The opcode table and the fields of a command word (30_encoding.md R90 to R99, R105). Every row has an opcode of its
own, so a word is decided by one row alone; and the encoder writes what a row builds from a word as the row's MATCH with
exactly the word's bits outside the row's MASK.
-/

namespace Sys2Proof

/-! The rows. -/

/-- R97: no two rows share an opcode. -/
theorem opRows_opcodes_nodup : (opRows.map fun r => opcodeOf r.pattern).Nodup := by decide

/-- R91: MASK covers OPC, and MATCH sets no bit outside MASK. -/
theorem opRows_mask : ∀ r ∈ opRows, opcodeOf r.mask = 0xFF#8 ∧ r.pattern &&& r.mask = r.pattern := by decide

/-- R98: the row of a row's own opcode is that row. -/
theorem rowOf_pattern {r : OpRow} (mem : r ∈ opRows) : rowOf (opcodeOf r.pattern) = some r := by
  obtain ⟨q, hq⟩ : ∃ q, rowOf (opcodeOf r.pattern) = some q :=
    Option.isSome_iff_exists.1 (List.find?_isSome.2 ⟨r, mem, beq_self_eq_true _⟩)
  have same : opcodeOf q.pattern = opcodeOf r.pattern := by simpa using List.find?_some hq
  rw [hq, List.inj_on_of_nodup_map opRows_opcodes_nodup (List.mem_of_find?_eq_some hq) mem same]

/-- R98: a row found is a row of the table, and has the opcode asked for. -/
theorem rowOf_eq_some {opc : BitVec 8} {r : OpRow} (h : rowOf opc = some r) : r ∈ opRows ∧ opcodeOf r.pattern = opc :=
  ⟨List.mem_of_find?_eq_some h, by simpa using List.find?_some h⟩

/-- R98: a word that shows a row's MATCH under its MASK has the row's opcode. -/
theorem opcodeOf_of_masked {r : OpRow} {w : Word} (mem : r ∈ opRows) (masked : w &&& r.mask = r.pattern) :
    opcodeOf w = opcodeOf r.pattern := by
  have full : opcodeOf w &&& opcodeOf r.mask = opcodeOf r.pattern := by
    rw [← masked]
    exact (BitVec.extractLsb'_and ..).symm
  rwa [(opRows_mask r mem).1, show 0xFF#8 = BitVec.allOnes 8 from rfl, BitVec.and_allOnes] at full

/-! Decoding. -/

/-- R98, R99: the row of the table decides every word of its opcode. -/
theorem encodes_of_mem {r : OpRow} (mem : r ∈ opRows) : Machine.Encodes r.pattern r.mask r.build := by
  intro w opc
  simp only [decode, opc, rowOf_pattern mem]

/-- R98: a word decodes to what a row builds from it where it shows that row's MATCH under its MASK. -/
theorem decode_eq_ok_iff {w : Word} {i : Instr} :
    decode w = .ok i ↔ ∃ r ∈ opRows, w &&& r.mask = r.pattern ∧ r.build w = i := by
  constructor
  · intro h
    unfold decode at h
    split at h
    · cases h
    · next r found =>
      split at h
      · next masked => exact ⟨r, (rowOf_eq_some found).1, masked, Except.ok.inj h⟩
      · cases h
  · rintro ⟨r, mem, masked, rfl⟩
    rw [encodes_of_mem mem w (opcodeOf_of_masked mem masked), if_pos masked]

/-- R98: a word that shows the MATCH of the row found under its MASK decodes to what the row builds. -/
theorem decode_eq_ok {opc : BitVec 8} {r : OpRow} {w : Word} {i : Instr} (row : rowOf opc = some r)
    (masked : w &&& r.mask = r.pattern) (build : r.build w = i) : decode w = .ok i :=
  decode_eq_ok_iff.2 ⟨r, (rowOf_eq_some row).1, masked, build⟩

/-- R98, R99: a word is refused as unassigned where no row has its opcode. -/
theorem decode_eq_unassigned_iff {w : Word} : decode w = .error .unassignedOpcode ↔ rowOf (opcodeOf w) = none := by
  unfold decode
  split
  · next unassigned => simp [unassigned]
  · next found => split <;> simp [found]

/-- R99: the opcodes of no row. -/
theorem rowOf_eq_none_iff : ∀ opc : BitVec 8, rowOf opc = none ↔
    opc.toNat = 0x00 ∨ (0x0A ≤ opc.toNat ∧ opc.toNat ≤ 0x0F) ∨ (0x1C ≤ opc.toNat ∧ opc.toNat ≤ 0x1F) ∨
      (0x2B ≤ opc.toNat ∧ opc.toNat ≤ 0x2F) ∨ 0x33 ≤ opc.toNat := by
  decide

/-- R105: a word that decodes is a command where DIN holds the bytes its instruction takes. -/
theorem decodeCommand_of_ok {w : Word} {i : Instr} (h : decode w = .ok i) (din : List Byte) :
    decodeCommand w din = if din.length = i.dinLength then .ok i else .error .dinLength := by
  rw [decodeCommand, h]

/-- R98: a word that does not decode is refused for its own reason, before DIN is looked at. -/
theorem decodeCommand_of_error {w : Word} {e : DecodeError} (h : decode w = .error e) (din : List Byte) :
    decodeCommand w din = .error e := by
  rw [decodeCommand, h]

/-! The fields of a word, written back where they stand. -/

/-- The `n` bits at `k`, put back at `k`, are the word's bits there. -/
theorem shiftLeft_extractLsb' (w : Word) (k n : Nat) :
    (w.extractLsb' k n).setWidth 32 <<< k = w &&& ((BitVec.allOnes n).setWidth 32 <<< k) := by
  ext i hi
  simp only [BitVec.getElem_shiftLeft, BitVec.getElem_setWidth, BitVec.getLsbD_extractLsb', BitVec.getElem_and,
    BitVec.getLsbD_allOnes]
  grind

/-- R92: INST stands in CMD[16]. -/
theorem instBits_fieldInst (w : Word) : instBits (fieldInst w) = w &&& 0x00010000#32 := by
  rw [show 0x00010000#32 = BitVec.twoPow 32 16 from rfl, BitVec.and_twoPow, fieldInst]
  split <;> rfl

/-- R93: the byte stands in IMM[7:0]. -/
theorem byteBits_fieldByte (w : Word) : byteBits (fieldByte w) = w &&& 0xFF#32 := by
  simpa [byteBits, fieldByte] using shiftLeft_extractLsb' w 0 8

/-- R94: the count stands in IMM[15:0]. -/
theorem countBits_fieldCount (w : Word) : countBits (fieldCount w) = w &&& 0xFFFF#32 := by
  rw [countBits, fieldCount, BitVec.ofNat_toNat, BitVec.setWidth_eq]
  simpa using shiftLeft_extractLsb' w 0 16

theorem bits_parOfBits : ∀ v : BitVec 2, (parOfBits v).bits = v.setWidth 32 <<< 4 := by decide

theorem bits_stopOfBits : ∀ v : BitVec 2, (stopOfBits v).bits = v.setWidth 32 <<< 6 := by decide

theorem bits_flowOfBits : ∀ v : BitVec 2, (flowOfBits v).bits = v.setWidth 32 <<< 8 := by decide

/-- R95: the line configuration stands in LC[9:0]. -/
theorem lineBits_fieldLine (w : Word) : lineBits (fieldLine w) = w &&& 0x3FF#32 := by
  have dbits : (w.extractLsb' 0 4).setWidth 32 = w &&& 0x00F#32 := by simpa using shiftLeft_extractLsb' w 0 4
  simp only [lineBits, fieldLine, bits_parOfBits, bits_stopOfBits, bits_flowOfBits, dbits, shiftLeft_extractLsb',
    ← BitVec.and_or_distrib_left]
  rfl

theorem fieldCount_lt (w : Word) : fieldCount w < 65536 := (w.extractLsb' 0 16).isLt

/-- R95: the line configuration that the decoder reads is the one the statements spell out. -/
theorem fieldLine_eq_lineFields (w : Word) : fieldLine w = Machine.lineFields w := by
  have bits (k n : Nat) : (w.extractLsb' k n).toNat = w.toNat / 2 ^ k % 2 ^ n := by simp [Nat.shiftRight_eq_div_pow]
  have par : (w.extractLsb' 4 2).toNat = w.toNat / 16 % 4 := bits 4 2
  have stop : (w.extractLsb' 6 2).toNat = w.toNat / 64 % 4 := bits 6 2
  have flow : (w.extractLsb' 8 2).toNat = w.toNat / 256 % 4 := bits 8 2
  rw [fieldLine, Machine.lineFields, ← par, ← stop, ← flow, LineReq.mk.injEq]
  refine ⟨BitVec.eq_of_toNat_eq (by simp), ?_, ?_, ?_⟩
  · generalize w.extractLsb' 4 2 = v
    revert v
    decide
  · generalize w.extractLsb' 6 2 = v
    revert v
    decide
  · generalize w.extractLsb' 8 2 = v
    revert v
    decide

/-! What a row builds. -/

/-- R97: the command word of what a row builds from a word is the row's MATCH with the word's bits outside MASK. -/
theorem encode_build (w : Word) : ∀ r ∈ opRows, encode (r.build w) = r.pattern ||| (w &&& ~~~r.mask) := by
  have push : w &&& 0x10000#32 ||| (w &&& 0xFF#32) = w &&& 0x100FF#32 := BitVec.and_or_distrib_left.symm
  simp [opRows, bufRows, ctrRows, uartRows, encode, instBits_fieldInst, byteBits_fieldByte, countBits_fieldCount,
    lineBits_fieldLine, BitVec.or_assoc, push]

/-- R94: what a row builds is well-formed. -/
theorem build_wf (w : Word) : ∀ r ∈ opRows, (r.build w).wf = true := by
  simp [opRows, bufRows, ctrRows, uartRows, Instr.wf, fieldCount_lt]

/-- R91: a word is its bits under a mask with its bits outside it. -/
theorem and_or_and_not (w m : Word) : w &&& m ||| (w &&& ~~~m) = w := by
  rw [← BitVec.and_or_distrib_left, BitVec.or_not_self, BitVec.and_allOnes]

/-! The fields of a command word, read back. -/

/-- R92: in a word whose other part leaves CMD[16] clear; the byte beside INST does not reach it. -/
theorem fieldInst_or (b : BufId) {p : Word} (hp : p[16] = false) (v : Byte) :
    fieldInst (p ||| instBits b ||| byteBits v) = b := by
  cases b <;> simp [fieldInst, instBits, byteBits, hp]

/-- R93: in a word whose other part leaves IMM[7:0] clear. -/
theorem fieldByte_or {p : Word} (hp : p.extractLsb' 0 8 = 0#8) (v : Byte) : fieldByte (p ||| byteBits v) = v := by
  have read : (byteBits v).extractLsb' 0 8 = v := by
    simp [byteBits, BitVec.extractLsb'_setWidth_of_le]
  rw [fieldByte, BitVec.extractLsb'_or, hp, read, BitVec.zero_or]

/-- R94: in a word whose other part leaves IMM[15:0] clear; a count of more than 16 bits would not fit. -/
theorem fieldCount_or {p : Word} (hp : p.extractLsb' 0 16 = 0#16) {n : Nat} (hn : n < 65536) :
    fieldCount (p ||| countBits n) = n := by
  have read : (countBits n).extractLsb' 0 16 = BitVec.ofNat 16 n := by
    simp [countBits, BitVec.extractLsb'_setWidth_of_le]
  rw [fieldCount, BitVec.extractLsb'_or, hp, read, BitVec.zero_or, BitVec.toNat_ofNat, Nat.mod_eq_of_lt hn]

/-- R95: the number of data bits lies in LC[3:0]. -/
theorem dbits_fields : ∀ d : BitVec 4,
    (d.setWidth 32).extractLsb' 0 4 = d ∧ (d.setWidth 32).extractLsb' 4 2 = 0#2 ∧
    (d.setWidth 32).extractLsb' 6 2 = 0#2 ∧ (d.setWidth 32).extractLsb' 8 2 = 0#2 := by decide

/-- R95: PAR lies in LC[5:4]. -/
theorem ParField.bits_fields (x : ParField) :
    x.bits.extractLsb' 0 4 = 0#4 ∧ parOfBits (x.bits.extractLsb' 4 2) = x ∧ x.bits.extractLsb' 6 2 = 0#2 ∧
    x.bits.extractLsb' 8 2 = 0#2 := by
  cases x <;> decide

/-- R95: STOP lies in LC[7:6]. -/
theorem StopField.bits_fields (x : StopField) :
    x.bits.extractLsb' 0 4 = 0#4 ∧ x.bits.extractLsb' 4 2 = 0#2 ∧ stopOfBits (x.bits.extractLsb' 6 2) = x ∧
    x.bits.extractLsb' 8 2 = 0#2 := by
  cases x <;> decide

/-- R95: FLOW lies in LC[9:8]. -/
theorem FlowField.bits_fields (x : FlowField) :
    x.bits.extractLsb' 0 4 = 0#4 ∧ x.bits.extractLsb' 4 2 = 0#2 ∧ x.bits.extractLsb' 6 2 = 0#2 ∧
    flowOfBits (x.bits.extractLsb' 8 2) = x := by
  cases x <;> decide

/-- R95: in a word whose other part leaves LC[9:0] clear; no field of LC reaches into another. -/
theorem fieldLine_or (lc : LineReq) {p : Word} (hp : p.extractLsb' 0 4 = 0#4 ∧ p.extractLsb' 4 2 = 0#2 ∧
    p.extractLsb' 6 2 = 0#2 ∧ p.extractLsb' 8 2 = 0#2) : fieldLine (p ||| lineBits lc) = lc := by
  simp [fieldLine, lineBits, BitVec.extractLsb'_or, hp, dbits_fields, ParField.bits_fields, StopField.bits_fields,
    FlowField.bits_fields]

end Sys2Proof
end

section
/-!
PROOF. The statements about the encoding (30_encoding.md R90 to R106), and FG's turn at a command that does not decode.
-/

namespace Sys2Proof

open Laws in
/-- Settles O3, a case for each kind of operand: none, INST (R92), INST and a byte, a byte (R93), a count (R94) and a line
configuration (R95). In each, no field reaches into MASK, and each field is read back from where it was put. -/
theorem decodeOfEncode : Obligations.DecodeOfEncode := by
  intro i wf
  cases i with
  | bufClear b | bufPop b | bufFront b | bufEmpty b | bufFull b | bufSize b | bufAvail b | bufMaxsize b => cases b <;> rfl
  | bufPush b v =>
    have clear : (0x02000000#32 ||| instBits b).extractLsb' 0 8 = 0#8 := by cases b <;> rfl
    refine decode_eq_ok (opc := 0x02#8) rfl
      (masked_or2 rfl (instBits_masked rfl b) (and_mask_zero (byteBits_lt v) (by decide))) ?_
    exact congrArg₂ Instr.bufPush (fieldInst_or b (by decide) v) (fieldByte_or clear v)
  | uartPut v =>
    exact decode_eq_ok (opc := 0x22#8) rfl (masked_or rfl (and_mask_zero (byteBits_lt v) (by decide)))
      (congrArg Instr.uartPut (fieldByte_or (by decide) v))
  | uartRead n =>
    exact decode_eq_ok (opc := 0x23#8) rfl (masked_or rfl (and_mask_zero (countBits_lt n) (by decide)))
      (congrArg Instr.uartRead (fieldCount_or (by decide) (of_decide_eq_true wf)))
  | uartWrite n =>
    exact decode_eq_ok (opc := 0x24#8) rfl (masked_or rfl (and_mask_zero (countBits_lt n) (by decide)))
      (congrArg Instr.uartWrite (fieldCount_or (by decide) (of_decide_eq_true wf)))
  | uartSetup lc =>
    exact decode_eq_ok (opc := 0x20#8) rfl (masked_or rfl (and_mask_zero (lineBits_lt lc) (by decide)))
      (congrArg Instr.uartSetup (fieldLine_or lc (by decide)))
  | uartCreate lc =>
    exact decode_eq_ok (opc := 0x30#8) rfl (masked_or rfl (and_mask_zero (lineBits_lt lc) (by decide)))
      (congrArg Instr.uartCreate (fieldLine_or lc (by decide)))
  | _ => rfl

/-- Settles O4: the word is its row's MATCH with its bits outside MASK, which is what the encoder writes. -/
theorem decodedWordIsTheCommandWord : Obligations.DecodedWordIsTheCommandWord := by
  intro w i h
  obtain ⟨r, mem, masked, rfl⟩ := decode_eq_ok_iff.1 h
  refine ⟨?_, build_wf w r mem⟩
  rw [encode_build w r mem, ← masked, and_or_and_not]

/-- Settles O1: each row decides the words of its opcode, and no other opcode has a row. -/
theorem opcodeTableDecodes : Obligations.OpcodeTableDecodes := by
  have rows : ∀ r ∈ opRows, Machine.Encodes r.pattern r.mask r.build := fun _ => encodes_of_mem
  have unassigned (w : Word) := decode_eq_unassigned_iff.trans (rowOf_eq_none_iff (opcodeOf w))
  have table := And.intro rows unassigned
  simp only [opRows, bufRows, ctrRows, uartRows, List.cons_append, List.nil_append, List.forall_mem_cons,
    List.not_mem_nil, false_imp_iff, implies_true, and_true, and_assoc, fieldLine_eq_lineFields] at table
  exact table

/-- Settles O2: the decoder and the encoder evaluated on fixed words. -/
theorem workedEncodingsDecode : Obligations.WorkedEncodingsDecode := by
  unfold Obligations.WorkedEncodingsDecode
  decide

end Sys2Proof

namespace Sys2Proof.Machine

/-- R98, R253: FG's turn where the presented command does not decode. -/
theorem fgStep_rejected {s : State} {e : DecodeError} (h0 : s.fault = 0#8) (inactive : s.isr = .inactive)
    (presented : s.fg = .presented) (refused : fetchCommand s = .error e) : fgStep s = .next (s.faulted 0x01#8) := by
  simp only [fgStep, h0, inactive, ne_eq, not_true_eq_false, or_self, if_false, presented, refused, rejectCommand,
    raiseFault_eq]
  rfl

/-- Settles O6: the word is looked at first, then the length of DIN; either refusal is F_ILLEGAL_CMD at FG's turn. -/
theorem illegalCommandFaults : Obligations.IllegalCommandFaults := by
  refine ⟨fun s rest e wf sched h0 inactive presented refused => ?_, fun w i din h => ?_,
    fun w e din h => decodeCommand_of_error h din⟩
  · exact (step_of_sched wf sched).trans (fgStep_rejected h0 inactive presented refused)
  · exact ⟨fun fits => (decodeCommand_of_ok h din).trans (if_pos fits),
      fun wrong => (decodeCommand_of_ok h din).trans (if_neg wrong)⟩

end Sys2Proof.Machine
end

section
/-!
PROOF. The buffer primitives and the nine BUF.* commands (40_buffer.md R120 to R136): the invariants of R22, the FIFO law, and
what each command answers.
-/

namespace Sys2Proof.Machine

/-! The primitives (R121 to R124), and the invariants of R22. -/

section
variable {cap : Nat} {b c : Buffer} {v : Byte}

theorem bufPush_full (full : b.count = cap) : bufPush cap b v = .error (.raise .pushFull) := if_pos full

theorem bufPush_room (notFull : b.count ≠ cap) (tail : b.tail < cap) :
    bufPush cap b v =
      .ok { b with store := b.store.write b.tail v, tail := inc b.tail cap, count := b.count + 1 } :=
  (if_neg notFull).trans (if_pos tail)

theorem bufPop_empty (empty : b.count = 0) : bufPop cap b = .error (.raise .popEmpty) := if_pos empty

theorem bufPop_nonempty (notEmpty : b.count ≠ 0) :
    bufPop cap b = .ok { b with head := inc b.head cap, count := b.count - 1 } := if_neg notEmpty

theorem bufFront_empty (empty : b.count = 0) : bufFront cap b = .error (.raise .frontEmpty) := if_pos empty

theorem bufFront_nonempty (notEmpty : b.count ≠ 0) (head : b.head < cap) :
    bufFront cap b = .ok (b.store.read b.head) :=
  (if_neg notEmpty).trans (if_pos head)

theorem bufClear_count (b : Buffer) : (bufClear b).count = 0 := rfl

theorem bufClear_live (b : Buffer) (h : 1 ≤ cap) : (bufClear b).Live cap where
  head_lt := h
  tail_lt := h
  count_le := Nat.zero_le _
  tail_eq := (Nat.zero_mod _).symm

/-- R22: a push moves `tail` and `count` on together. -/
theorem bufPush_keepsLive (live : b.Live cap) (hp : bufPush cap b v = .ok c) : c.Live cap := by
  obtain ⟨-, e⟩ | ⟨notFull, tail, e⟩ | ⟨-, -, e⟩ := bufPush_cases hp <;> cases e
  exact {
    head_lt := live.head_lt
    tail_lt := inc_lt tail
    count_le := Nat.lt_of_le_of_ne live.count_le notFull
    tail_eq := by
      calc inc b.tail cap = (b.tail + 1) % cap := inc_eq_mod tail
        _ = (b.head + (b.count + 1)) % cap := by rw [live.tail_eq, Nat.mod_add_mod, Nat.add_assoc] }

/-- R22: a pop moves `head` on by what it takes from `count`, so `tail` need not move. -/
theorem bufPop_keepsLive (live : b.Live cap) (hp : bufPop cap b = .ok c) : c.Live cap := by
  obtain ⟨-, e⟩ | ⟨notEmpty, e⟩ := bufPop_cases hp <;> cases e
  exact {
    head_lt := inc_lt live.head_lt
    tail_lt := live.tail_lt
    count_le := (Nat.sub_le _ _).trans live.count_le
    tail_eq := by
      calc b.tail = (b.head + 1 + (b.count - 1)) % cap := by rw [live.tail_eq]; congr 1; omega
        _ = (inc b.head cap + (b.count - 1)) % cap := by rw [inc_eq_mod live.head_lt, Nat.mod_add_mod] }

theorem bufPush_count (hp : bufPush cap b v = .ok c) : c.count = b.count + 1 := by
  obtain ⟨-, e⟩ | ⟨-, -, e⟩ | ⟨-, -, e⟩ := bufPush_cases hp <;> cases e
  rfl

theorem bufPop_count (hp : bufPop cap b = .ok c) : c.count + 1 = b.count := by
  obtain ⟨-, e⟩ | ⟨notEmpty, e⟩ := bufPop_cases hp <;> cases e
  exact Nat.succ_pred_eq_of_ne_zero notEmpty

theorem bufPop_contents (live : b.Live cap) (hp : bufPop cap b = .ok c) :
    b.contents cap = b.store.read b.head :: c.contents cap := by
  obtain ⟨-, e⟩ | ⟨notEmpty, e⟩ := bufPop_cases hp <;> cases e
  exact contents_pop live notEmpty

end

/-- Settles O25: a lemma for each primitive that writes. -/
theorem bufferPrimitivesKeepInvariants : Obligations.BufferPrimitivesKeepInvariants := fun _ b _ _ =>
  ⟨bufClear_live b, bufPush_keepsLive, bufPop_keepsLive⟩

/-! Sequences of pushes and pops (R136). -/

section
variable {cap : Nat} {b c : Buffer} {v : Byte} {ops : List (Option Byte)}

theorem runBuffer_push :
    runBuffer cap (some v :: ops) b = .ok c ↔ ∃ d, bufPush cap b v = .ok d ∧ runBuffer cap ops d = .ok c := by
  rw [runBuffer]
  cases bufPush cap b v <;> simp

theorem runBuffer_pop :
    runBuffer cap (none :: ops) b = .ok c ↔ ∃ d, bufPop cap b = .ok d ∧ runBuffer cap ops d = .ok c := by
  rw [runBuffer]
  cases bufPop cap b <;> simp

/-- R135: a sequence that completes keeps the invariants, for every primitive does. -/
theorem runBuffer_keepsLive (live : b.Live cap) (run : runBuffer cap ops b = .ok c) : c.Live cap := by
  induction ops generalizing b with
  | nil => cases run; exact live
  | cons op ops ih =>
    cases op with
    | some v =>
      obtain ⟨d, hp, run⟩ := runBuffer_push.1 run
      exact ih (bufPush_keepsLive live hp) run
    | none =>
      obtain ⟨d, hp, run⟩ := runBuffer_pop.1 run
      exact ih (bufPop_keepsLive live hp) run

/-- R136, from any buffer: pops take from the count what pushes add. -/
theorem runBuffer_count (run : runBuffer cap ops b = .ok c) :
    c.count + (ops.filter Option.isNone).length = b.count + (ops.filter Option.isSome).length := by
  induction ops generalizing b with
  | nil => cases run; rfl
  | cons op ops ih =>
    cases op with
    | some v =>
      obtain ⟨d, hp, run⟩ := runBuffer_push.1 run
      have := bufPush_count hp
      have := ih run
      simp only [List.filter_cons, Option.isNone, Option.isSome, Bool.false_eq_true, if_false, if_true, List.length_cons]
      omega
    | none =>
      obtain ⟨d, hp, run⟩ := runBuffer_pop.1 run
      have := bufPop_count hp
      have := ih run
      simp only [List.filter_cons, Option.isNone, Option.isSome, Bool.false_eq_true, if_false, if_true, List.length_cons]
      omega

/-- R136, from any live buffer: the bytes pushed join behind those held, and each pop takes the first. -/
theorem runBuffer_contents (live : b.Live cap) (run : runBuffer cap ops b = .ok c) :
    c.contents cap = (b.contents cap ++ ops.filterMap id).drop (ops.filter Option.isNone).length := by
  induction ops generalizing b with
  | nil => cases run; simp
  | cons op ops ih =>
    cases op with
    | some v =>
      obtain ⟨d, hp, run⟩ := runBuffer_push.1 run
      rw [ih (bufPush_keepsLive live hp) run, bufPush_contents live hp]
      simp
    | none =>
      obtain ⟨d, hp, run⟩ := runBuffer_pop.1 run
      rw [ih (bufPop_keepsLive live hp) run, bufPop_contents live hp]
      simp

end

/-- Settles O26: the laws of a sequence from any live buffer, taken at the cleared buffer, which holds no byte. -/
theorem fifoLaw : Obligations.FifoLaw := by
  refine ⟨fun cap b c ops hcap run => ?_, fun cap c live notEmpty => ?_⟩
  · have live := bufClear_live b hcap
    have count := runBuffer_count run
    have contents := runBuffer_contents live run
    rw [bufClear_count, Nat.zero_add] at count
    rw [contents_of_empty (bufClear_count b), List.nil_append] at contents
    exact ⟨runBuffer_keepsLive live run, count, contents⟩
  · have popped := bufPop_nonempty (cap := cap) notEmpty
    exact ⟨_, _, bufFront_nonempty notEmpty live.head_lt, popped, bufPop_count popped, bufPop_contents live popped⟩

/-! The critical section around a write of one buffer (R73, R125). -/

section
variable (s : State) (b : BufId) (v : Buffer)

theorem sectionClosed_setBuf : (s.setBuf b v).sectionClosed = s.sectionClosed.setBuf b v := by
  unfold State.sectionClosed
  rw [apply_ite (State.setBuf · b v)]
  cases b <;> rfl

@[simp] theorem sectionDone_buf : s.sectionDone.buf b = s.buf b := by
  unfold State.sectionDone
  cases b <;> split <;> rfl

@[simp] theorem setBuf_buf_self : s.setBuf b (s.buf b) = s := by cases b <;> rfl

end

/-! What a BUF.* command answers (R125), whatever its body. -/

section
variable {isClear : Bool} {b : BufId} {s : State} {body : Nat → Buffer → Except Stop (Buffer × Word)}

theorem bufCommand_destroyed (destroyed : s.lc = .destroyed) :
    bufCommand isClear b body s = .next (s.faulted 0x04#8) := by
  simp only [bufCommand, bufAdmit, destroyed, if_true]
  rfl

theorem bufCommand_uninit (alive : s.lc ≠ .destroyed) (uninit : (s.buf b).init = false) :
    bufCommand false b body s = .next (s.faulted 0x05#8) := by
  simp only [bufCommand, bufAdmit, alive, uninit, if_false, Bool.not_false, Bool.and_self, if_true]
  rfl

/-- R125: an admitted command runs its body in one critical section. -/
theorem bufCommand_admitted (alive : s.lc ≠ .destroyed) (init : isClear = true ∨ (s.buf b).init = true) :
    bufCommand isClear b body s =
      onOk (body (s.cap b) (s.buf b)) s.sectionOpen fun r =>
        .next ((s.sectionDone.setBuf b r.1).answered 0x00#8 r.2 []) := by
  have admitted : bufAdmit isClear b s = none := by
    obtain ⟨h, -⟩ | ⟨-, hc, hi, -⟩ | ⟨-, -, h⟩ := bufAdmit_cases isClear b s
    · exact absurd h alive
    · simp [hc, hi] at init
    · exact h
  simp only [bufCommand, admitted, finish_eq, csEnter_eq, csExit_eq, sectionClosed_setBuf, sectionClosed_sectionOpen]
  rfl

theorem bufCommand_completes {x : Buffer} {w : Word} (alive : s.lc ≠ .destroyed)
    (init : isClear = true ∨ (s.buf b).init = true) (completes : body (s.cap b) (s.buf b) = .ok (x, w)) :
    bufCommand isClear b body s = .next ((s.sectionDone.setBuf b x).answered 0x00#8 w []) := by
  rw [bufCommand_admitted alive init, completes, onOk_ok]

/-- R252: a fault the body raises leaves the section open. -/
theorem bufCommand_raises (c : FaultCode) (alive : s.lc ≠ .destroyed) (init : isClear = true ∨ (s.buf b).init = true)
    (raises : body (s.cap b) (s.buf b) = .error (.raise c)) :
    bufCommand isClear b body s = .next (s.sectionOpen.faulted c.code) := by
  rw [bufCommand_admitted alive init, raises, onOk_error, outcome_raise, raiseFault_eq]

/-- A command whose body leaves the buffer as it is leaves it so. -/
theorem bufCommand_reads {w : Word} (alive : s.lc ≠ .destroyed) (init : isClear = true ∨ (s.buf b).init = true)
    (reads : body (s.cap b) (s.buf b) = .ok (s.buf b, w)) :
    bufCommand isClear b body s = .next (s.sectionDone.answered 0x00#8 w []) := by
  rw [bufCommand_completes alive init reads, ← sectionDone_buf, setBuf_buf_self]

end

/-! The commands. -/

/-- Settles O20: CLEAR asks only that the transport is not DESTROYED. -/
theorem bufClearEmpties : Obligations.BufClearEmpties := by
  intro b s
  unfold exec execBufClear
  exact ⟨bufCommand_destroyed, fun alive => bufCommand_completes alive (.inl rfl) rfl⟩

/-- Settles O21: the storage that PUSH leaves is the one with `tail` written. -/
theorem bufPushAppends : Obligations.BufPushAppends := by
  intro b v s
  unfold exec execBufPush
  refine ⟨bufCommand_destroyed, bufCommand_uninit, fun alive init full => ?_,
    fun alive init notFull tail => ⟨(s.buf b).store.write (s.buf b).tail v, fun i => memory_read_write _ _ i v, ?_⟩⟩
  · exact bufCommand_raises .pushFull alive (.inr init) (by rw [bufPush_full full]; rfl)
  · exact bufCommand_completes alive (.inr init) (by rw [bufPush_room notFull tail, init]; rfl)

/-- Settles O22: the buffer that POP leaves has its storage and `tail` as they were. -/
theorem bufPopDropsTheOldest : Obligations.BufPopDropsTheOldest := by
  intro b s
  unfold exec execBufPop
  refine ⟨bufCommand_destroyed, bufCommand_uninit, fun alive init empty => ?_, fun alive init notEmpty => ?_⟩
  · exact bufCommand_raises .popEmpty alive (.inr init) (by rw [bufPop_empty empty]; rfl)
  · exact bufCommand_completes alive (.inr init) (by rw [bufPop_nonempty notEmpty, init]; rfl)

/-- Settles O23: FRONT's body gives back the buffer it found, so the command leaves no trace on it. -/
theorem bufFrontReadsTheOldest : Obligations.BufFrontReadsTheOldest := by
  intro b s
  unfold exec execBufFront
  refine ⟨bufCommand_destroyed, bufCommand_uninit, fun alive init empty => ?_, fun alive init notEmpty head => ?_⟩
  · exact bufCommand_raises .frontEmpty alive (.inr init) (by rw [bufFront_empty empty]; rfl)
  · exact bufCommand_reads alive (.inr init) (by rw [bufFront_nonempty notEmpty head, BitVec.ofNat_toNat]; rfl)

/-- R130 to R134: each query is a BUF.* command that has to find its buffer initialized. -/
theorem exec_query {b : BufId} {i : Instr}
    (query : i ∈ [Instr.bufEmpty b, .bufFull b, .bufSize b, .bufAvail b, .bufMaxsize b]) (s : State) :
    ∃ body, exec i s = bufCommand false b body s := by
  simp only [List.mem_cons, List.not_mem_nil, or_false] at query
  obtain rfl | rfl | rfl | rfl | rfl := query <;> exact ⟨_, by unfold exec; rfl⟩

/-- The answer of a command that computes a word from an initialized buffer and its capacity. -/
theorem bufCommand_query {b : BufId} {s : State} (answer : Nat → Buffer → Word) (alive : s.lc ≠ .destroyed)
    (init : (s.buf b).init = true) :
    bufCommand false b (fun cap x => .ok (x, answer cap x)) s =
      .next (s.sectionDone.answered 0x00#8 (answer (s.cap b) (s.buf b)) []) :=
  bufCommand_reads alive (.inr init) rfl

/-- R130, R131: the word of a truth value. -/
theorem boolWord_decide (p : Prop) [Decidable p] : boolWord (decide p) = if p then 1#32 else 0#32 := by
  simp only [boolWord, decide_eq_true_eq]

/-- Settles O24: the queries are admitted alike, and each answers its own word. -/
theorem bufQueriesAnswer : Obligations.BufQueriesAnswer := by
  refine fun b s => ⟨fun destroyed i query => ?_, fun alive uninit i query => ?_, fun alive init => ?_⟩
  · obtain ⟨body, e⟩ := exec_query query s
    exact e.trans (bufCommand_destroyed destroyed)
  · obtain ⟨body, e⟩ := exec_query query s
    exact e.trans (bufCommand_uninit alive uninit)
  · rw [← boolWord_decide, ← boolWord_decide]
    exact ⟨bufCommand_query (fun _ x => boolWord x.isEmpty) alive init,
      bufCommand_query (fun cap x => boolWord (x.isFull cap)) alive init,
      bufCommand_query (fun _ x => BitVec.ofNat 32 x.count) alive init,
      bufCommand_query (fun cap x => BitVec.ofNat 32 (cap - x.count)) alive init,
      bufCommand_query (fun cap _ => BitVec.ofNat 32 cap) alive init⟩

end Sys2Proof.Machine
end

section
/-!
PROOF. The counter and the twelve CTR.* commands (41_counter.md R141 to R163): its tick, what each command answers, and that
differences do not see the counter wrap.
-/

namespace Sys2Proof.Machine

/-! Sized values (R146, R147). -/

/-- R146, R147: the value of an exact computation, or the fault of one whose `size` exceeds 2^32 − 1. -/
def sized (size value : Nat) (c : FaultCode) : Except Stop Word :=
  if size > 2 ^ 32 - 1 then .error (.raise c) else .ok (BitVec.ofNat 32 value)

section
variable {size value : Nat} {c : FaultCode} {s : State}

theorem sized_overflows (large : size > 2 ^ 32 - 1) : sized size value c = .error (.raise c) := if_pos large

theorem sized_fits (fits : size ≤ 2 ^ 32 - 1) : sized size value c = .ok (BitVec.ofNat 32 value) :=
  if_neg (Nat.not_lt.2 fits)

theorem toNat_of_sized {w : Word} (le : value ≤ size) (h : sized size value c = .ok w) : w.toNat = value := by
  by_cases large : size > 2 ^ 32 - 1
  · cases (sized_overflows large).symm.trans h
  · cases (sized_fits (Nat.not_lt.1 large)).symm.trans h
    exact Nat.mod_eq_of_lt (by omega)

theorem ctrPure_sized :
    (size > 2 ^ 32 - 1 → ctrPure (sized size value c) s = .next (s.faulted c.code)) ∧
    (size ≤ 2 ^ 32 - 1 → ctrPure (sized size value c) s = .next (s.answered 0x00#8 (BitVec.ofNat 32 value) [])) :=
  ⟨fun large => by rw [sized_overflows large]; rfl, fun fits => by rw [sized_fits fits]; rfl⟩

end

/-- A command that answered OK has its value in RES. -/
theorem ctrPure_ok_res {r : Except Stop Word} {s t : State} (h : ctrPure r s = .next t) (ok : t.port.sts = 0x00#8) :
    r = .ok t.port.res := by
  obtain ⟨a, hr, hk⟩ | ⟨c, -, rfl⟩ := onOk_next h
  · cases hk
    exact hr
  · cases ok

/-! The conversions (R145, R146, R150 to R152). -/

/-- R146: what a conversion or a wait makes of its duration. -/
def conversion (i : Instr) (hz : Nat) (x : Word) : Except Stop Word :=
  sized (durationProduct i hz x.toNat) (durationCounts i hz x.toNat) .convOverflow

/-- R146: a conversion is its exact product, checked and then scaled. -/
theorem convProduct_map (x : Word) (k : Nat) (scale : Nat → Nat) :
    ((convProduct x k).map fun p => BitVec.ofNat 32 (scale p)) = sized (x.toNat * k) (scale (x.toNat * k)) .convOverflow := by
  unfold convProduct sized
  split <;> rfl

/-- R13: `ceil_div` with its divisor's predecessor, as the constants of the statements have it. -/
theorem ceilDiv_succ (a n : Nat) : ceilDiv a (n + 1) = (a + n) / (n + 1) := rfl

section
variable (hz x : Nat)

theorem durationProduct_ns : durationProduct .ctrNs2cnt hz x = x * countsPer1024Ns hz :=
  congrArg (x * ·) (ceilDiv_succ (hz * 1024) 999999999).symm

theorem durationProduct_us : durationProduct .ctrUs2cnt hz x = x * countsPerUs hz :=
  congrArg (x * ·) (ceilDiv_succ hz 999999).symm

theorem durationProduct_ms : durationProduct .ctrMs2cnt hz x = x * countsPerMs hz :=
  congrArg (x * ·) (ceilDiv_succ hz 999).symm

theorem durationCounts_ns : durationCounts .ctrNs2cnt hz x = ceilDiv (x * countsPer1024Ns hz) 1024 := by
  rw [← durationProduct_ns]
  exact (ceilDiv_succ _ 1023).symm

theorem durationCounts_us : durationCounts .ctrUs2cnt hz x = x * countsPerUs hz := durationProduct_us hz x

theorem durationCounts_ms : durationCounts .ctrMs2cnt hz x = x * countsPerMs hz := durationProduct_ms hz x

end

theorem convNs_eq : convNs = conversion .ctrNs2cnt := by
  funext hz x
  rw [conversion, durationProduct_ns, durationCounts_ns]
  exact convProduct_map x (countsPer1024Ns hz) (ceilDiv · 1024)

theorem convUs_eq : convUs = conversion .ctrUs2cnt := by
  funext hz x
  rw [conversion, durationProduct_us, durationCounts_us]
  exact convProduct_map x (countsPerUs hz) fun p => p

theorem convMs_eq : convMs = conversion .ctrMs2cnt := by
  funext hz x
  rw [conversion, durationProduct_ms, durationCounts_ms]
  exact convProduct_map x (countsPerMs hz) fun p => p

theorem exec_conversion {i : Instr} (mem : i ∈ [Instr.ctrNs2cnt, .ctrUs2cnt, .ctrMs2cnt]) (s : State) :
    exec i s = ctrPure (conversion i s.inst.ctrHz s.port.opa) s := by
  simp only [List.mem_cons, List.not_mem_nil, or_false] at mem
  obtain rfl | rfl | rfl := mem
  · rw [← convNs_eq]; rfl
  · rw [← convUs_eq]; rfl
  · rw [← convMs_eq]; rfl

/-- Settles O28: the exact product decides between the fault and the answer. -/
theorem ctrConversions : Obligations.CtrConversions := by
  intro i mem s
  rw [exec_conversion mem]
  exact ctrPure_sized

/-- R13: dividing rounds up. -/
theorem le_ceilDiv_mul (a : Nat) {b : Nat} (pos : 0 < b) : a ≤ ceilDiv a b * b := by
  rw [Nat.mul_comm]
  exact le_smul_ceilDiv pos

/-- Only the nanoseconds are scaled down. -/
theorem durationCounts_le (i : Instr) (hz x : Nat) : durationCounts i hz x ≤ durationProduct i hz x := by
  unfold durationCounts
  split <;> omega

/-- R145: a duration times a constant, rounded up, of counts per unit. -/
theorem le_mul_ceilDiv_mul (x a : Nat) {unit : Nat} (pos : 0 < unit) : x * a ≤ x * ceilDiv a unit * unit := by
  rw [Nat.mul_assoc]
  exact Nat.mul_le_mul_left x (le_ceilDiv_mul a pos)

/-- R146: both roundings, of the constant and of the count, are upwards. -/
theorem durationCounts_bound {p : Instr × Nat}
    (mem : p ∈ [(Instr.ctrNs2cnt, 10 ^ 9), (.ctrUs2cnt, 10 ^ 6), (.ctrMs2cnt, 10 ^ 3)]) (hz x : Nat) :
    x * hz ≤ durationCounts p.1 hz x * p.2 := by
  simp only [List.mem_cons, List.not_mem_nil, or_false] at mem
  obtain rfl | rfl | rfl := mem
  · have constant : x * (hz * 1024) ≤ x * countsPer1024Ns hz * 1000000000 := le_mul_ceilDiv_mul _ _ (by decide)
    have count := le_ceilDiv_mul (x * countsPer1024Ns hz) (b := 1024) (by decide)
    rw [durationCounts_ns]
    rw [← Nat.mul_assoc] at constant
    omega
  · rw [durationCounts_us]
    exact le_mul_ceilDiv_mul x hz (by decide)
  · rw [durationCounts_ms]
    exact le_mul_ceilDiv_mul x hz (by decide)

section
variable {p : Instr × Nat} (mem : p ∈ [(Instr.ctrNs2cnt, 10 ^ 9), (.ctrUs2cnt, 10 ^ 6), (.ctrMs2cnt, 10 ^ 3)])
include mem

theorem conversion_bound {hz : Nat} {x c : Word} (ok : conversion p.1 hz x = .ok c) : c.toNat * p.2 ≥ x.toNat * hz := by
  rw [toNat_of_sized (durationCounts_le ..) ok]
  exact durationCounts_bound mem hz x.toNat

theorem exec_conversion_bound {s t : State} (next : exec p.1 s = .next t) (ok : t.port.sts = 0x00#8) :
    t.port.res.toNat * p.2 ≥ s.port.opa.toNat * s.inst.ctrHz := by
  rw [exec_conversion (List.mem_map_of_mem (f := Prod.fst) mem)] at next
  exact conversion_bound mem (ctrPure_ok_res next ok)

end

/-- Settles O29: RES holds the conversion's count, and the count was rounded up twice. -/
theorem conversionsNeverUndershoot : Obligations.ConversionsNeverUndershoot := by
  refine ⟨fun hz x c => ?_, fun s t => ⟨exec_conversion_bound (p := (_, _)) (by simp),
    exec_conversion_bound (p := (_, _)) (by simp), exec_conversion_bound (p := (_, _)) (by simp)⟩⟩
  rw [convNs_eq, convUs_eq, convMs_eq]
  exact ⟨conversion_bound (p := (_, _)) (by simp), conversion_bound (p := (_, _)) (by simp),
    conversion_bound (p := (_, _)) (by simp)⟩

/-! Differences and measurements (R143, R147, R153, R159 to R161). -/

/-- Settles O30: the difference of the operands, in the direction of counting. -/
theorem ctrDiffSubtracts : Obligations.CtrDiffSubtracts := by
  intro s
  have answers : exec .ctrDiff s = .next (s.answered 0x00#8 (diff s.inst.ctrDir s.port.opa s.port.opb) []) := rfl
  rw [answers]
  exact ⟨fun up => by rw [up]; rfl, fun down => by rw [down]; rfl⟩

theorem exec_measure {p : Instr × Nat}
    (mem : p ∈ [(Instr.ctrMeasns, 1000000000), (.ctrMeasus, 1000000), (.ctrMeasms, 1000)]) (s : State) :
    exec p.1 s = ctrPure (measureCounts p.2 s.inst.ctrHz (operandDiff s)) s := by
  simp only [List.mem_cons, List.not_mem_nil, or_false] at mem
  obtain rfl | rfl | rfl := mem <;> rfl

/-- Settles O32: the rounded-up duration decides between the fault and the answer. -/
theorem ctrMeasurements : Obligations.CtrMeasurements := by
  intro p mem s d r
  have counts : (operandDiff s).toNat = d := by
    simp only [operandDiff, diff, d]
    cases s.inst.ctrDir <;> rfl
  have rounded : ceilDiv ((operandDiff s).toNat * p.2) s.inst.ctrHz = r := by
    rw [counts]
    rfl
  rw [exec_measure mem, ← rounded]
  exact ctrPure_sized

/-! The counter, its tick and its reading (R141, R144, R149, R154). -/

theorem counterOn_of_init {s : State} (init : s.ctr.init = true) : s.counterOn = s := if_pos init

/-- Settles O12: the turn is the tick on the state without the turn. -/
theorem counterTicks : Obligations.CounterTicks := by
  intro s rest wf sched
  have turn : step s = .next (ctrTick { s with sched := rest }) := step_of_sched wf sched
  rw [turn, ctrTick]
  refine ⟨fun init up => ?_, fun init down => ?_, fun uninit => ?_⟩
  · simp only [init, up, if_true, ctrNext]
  · simp only [init, down, if_true, ctrNext]
  · simp only [uninit, Bool.false_eq_true, if_false]

/-- Settles O27: CTR.NOW reads the counter that CtrEnsureInit leaves. -/
theorem ctrNowReadsTheCounter : Obligations.CtrNowReadsTheCounter := by
  intro s
  rw [← ensureInit_eq]
  rfl

/-- Settles O31: the comparison of the two words is that of their values. -/
theorem ctrTimeoutCompares : Obligations.CtrTimeoutCompares := by
  intro s
  have answers : exec .ctrTimeout s = .next ((ensureInit s).answered 0x00#8
      (boolWord (decide (s.port.opb ≤ diff s.inst.ctrDir s.port.opa (ensureInit s).ctr.cnt))) []) := rfl
  rw [answers, ensureInit_eq, diff_eq, boolWord_decide]
  rfl

/-! The counter's wrap (R162, R163). -/

/-- R141, R143: one count more has elapsed after a tick. -/
theorem diff_ctrNext (dir : CtrDir) (start c : Word) : diff dir start (ctrNext dir c) = diff dir start c + 1#32 := by
  cases dir <;> simp only [diff, ctrNext] <;> bv_omega

/-- R162, modulo 2^32 and for any number of ticks. -/
theorem diff_iterate_ctrNext (dir : CtrDir) (start : Word) (e : Nat) :
    diff dir start ((ctrNext dir)^[e] start) = BitVec.ofNat 32 e := by
  induction e with
  | zero => cases dir <;> exact BitVec.sub_self start
  | succ e ih => rw [Function.iterate_succ_apply', diff_ctrNext, ih, BitVec.ofNat_add]

theorem diff_iterate_ctrNext_toNat (dir : CtrDir) (start : Word) {e : Nat} (lt : e < 2 ^ 32) :
    (diff dir start ((ctrNext dir)^[e] start)).toNat = e := by
  rw [diff_iterate_ctrNext]
  exact Nat.mod_eq_of_lt lt

/-- Settles O34: each tick adds one to the difference, in either direction. -/
theorem diffIsWrapInsensitive : Obligations.DiffIsWrapInsensitive := fun start _ lt =>
  ⟨diff_iterate_ctrNext_toNat .up start lt, diff_iterate_ctrNext_toNat .down start lt⟩

/-- Settles O35: the counts elapsed are the ticks, and TIMEOUT compares them. -/
theorem timeoutTurnsTrueWhenDue : Obligations.TimeoutTurnsTrueWhenDue := by
  intro s e ctr lt
  have on : s.counterOn = s := counterOn_of_init (by rw [ctr])
  have elapsed : (s.elapsed s.port.opa).toNat = e := by
    rw [← diff_eq, on, ctr]
    exact diff_iterate_ctrNext_toNat _ _ lt
  rw [ctrTimeoutCompares s, on, elapsed]
  exact ⟨fun before => by rw [if_neg (Nat.not_le.2 before)], fun due => by rw [if_pos due]⟩

/-! The waits (R155 to R158). -/

theorem exec_wait {i : Instr} (mem : i ∈ [Instr.ctrWaitns, .ctrWaitus, .ctrWaitms]) (s : State) :
    exec i s = waitCommand i (conversion i) s := by
  simp only [List.mem_cons, List.not_mem_nil, or_false] at mem
  obtain rfl | rfl | rfl := mem
  · exact congrArg (waitCommand .ctrWaitns · s) convNs_eq
  · exact congrArg (waitCommand .ctrWaitus · s) convUs_eq
  · exact congrArg (waitCommand .ctrWaitms · s) convMs_eq

section
variable {i : Instr} {conv : Nat → Word → Except Stop Word} {s : State} {t base : Word}

/-- A command that pauses where it is stays there. -/
theorem pauseAt_running {p : FgPoint} (running : s.fg = .running i p) : pauseAt i p s = .next s := by
  rw [pauseAt, ← running]

/-- R155: the first step takes the base, in the state that CtrEnsureInit leaves. -/
theorem waitCommand_start (start : AtStart s) :
    waitCommand i conv s =
      onOk (conv s.inst.ctrHz s.port.opa) s.counterOn fun t =>
        pauseAt i (.waitSample t s.counterOn.ctr.cnt) s.counterOn := by
  have none : s.fg.point = none := start
  rw [waitCommand, none, ← ensureInit_eq]
  rfl

/-- R155: a later step is one sample. -/
theorem waitCommand_sample (running : s.fg = .running i (.waitSample t base)) :
    waitCommand i conv s =
      if t.toNat ≤ (s.elapsed base).toNat then .next (s.counterOn.answered 0x00#8 0#32 []) else .next s.counterOn := by
  have point : s.fg.point = some (.waitSample t base) := by rw [running]; rfl
  have stay : pauseAt i (.waitSample t base) s.counterOn = .next s.counterOn :=
    pauseAt_running ((counterOn_fg s).trans running)
  rw [waitCommand, point, ← stay, ← diff_eq, ← ensureInit_eq]
  rfl

end

/-- Settles O33: the first step with a product that overflows and with one that fits, and a sample that is due and one that
is not. -/
theorem ctrWaits : Obligations.CtrWaits := by
  intro i mem s
  rw [exec_wait mem]
  refine ⟨fun start large => ?_, fun start fits => ?_, fun t base running due => ?_, fun t base running early => ?_⟩
  · rw [waitCommand_start start, conversion, sized_overflows large]; rfl
  · rw [waitCommand_start start, conversion, sized_fits fits]; rfl
  · rw [waitCommand_sample running, if_pos due]
  · rw [waitCommand_sample running, if_neg (Nat.not_le.2 early)]

end Sys2Proof.Machine
end

section
/-!
PROOF. The transport's lifecycle (42_transport.md R170 to R176, R191): admission, the validation of a line configuration and
its frame period, SetupCore and DESTROY.
-/

namespace Sys2Proof.Machine

/-! Admission (R170). -/

/-- R170: the row of the admission table that a UART.* command has. -/
def admitKindOf : Instr → Option AdmitKind
  | .uartCreate _ => some .create
  | .uartSetup _ | .uartDestroy => some .configure
  | .uartGet | .uartPut _ | .uartRead _ | .uartWrite _ | .uartClear | .uartFlush | .uartFrameperiod | .uartOverrun
  | .uartFraming | .uartParity | .uartService => some .use
  | _ => none

theorem lifecycleFault_eq_some {i : Instr} {lc : Lifecycle} {code : BitVec 8} (h : lifecycleFault i lc = some code) :
    ∃ k c, admitKindOf i = some k ∧ uartAdmit k lc = some c ∧ c.code = code := by
  cases i with
  | uartCreate => cases lc <;> cases h <;> exact ⟨.create, _, rfl, rfl, rfl⟩
  | uartSetup | uartDestroy => cases lc <;> cases h <;> exact ⟨.configure, _, rfl, rfl, rfl⟩
  | uartGet | uartPut | uartRead | uartWrite | uartClear | uartFlush | uartFrameperiod | uartOverrun | uartFraming
  | uartParity | uartService => cases lc <;> cases h <;> exact ⟨.use, _, rfl, rfl, rfl⟩
  | _ => cases h

/-- R170: the first step of every UART.* command is under its row's admission. -/
theorem exec_start_admitted {i : Instr} {k : AdmitKind} {s : State} (row : admitKindOf i = some k) (start : AtStart s) :
    ∃ body, exec i s = admitted k s body := by
  have start : s.fg.point = none := start
  cases i with
  | uartGet | uartRead | uartClear | uartFrameperiod | uartOverrun | uartFraming | uartParity =>
    cases row
    exact ⟨_, rfl⟩
  | uartSetup | uartCreate | uartPut | uartWrite | uartFlush | uartDestroy | uartService =>
    cases row
    simp only [exec, execUartSetup, execUartCreate, setupCommand, execUartPut, execUartWrite, execUartFlush,
      execUartDestroy, execUartService, start]
    exact ⟨_, rfl⟩
  | _ => cases row

theorem admitted_fault {k : AdmitKind} {c : FaultCode} {s : State} (refused : uartAdmit k s.lc = some c)
    (body : Outcome) : admitted k s body = .next (s.faulted c.code) := by
  rw [admitted, refused]
  rfl

/-- Settles O36: the table's fault entries are those of the command's row. -/
theorem lifecycleAdmission : Obligations.LifecycleAdmission := by
  intro i s code start fault
  obtain ⟨k, c, row, refused, rfl⟩ := lifecycleFault_eq_some fault
  obtain ⟨body, e⟩ := exec_start_admitted row start
  exact e.trans (admitted_fault refused body)

theorem admitted_allowed {k : AdmitKind} {s : State} (allowed : uartAdmit k s.lc = none) (body : Outcome) :
    admitted k s body = body := by
  rw [admitted, allowed]

/-- R170: SETUP and DESTROY are admitted once the transport is constructed. -/
theorem uartAdmit_configure {lc : Lifecycle} (h : lc = .ready ∨ lc = .setupFailed) : uartAdmit .configure lc = none := by
  obtain rfl | rfl := h <;> rfl

/-! The line configuration (R171 to R173). -/

theorem parityOf_eq_some_iff {x : ParField} {y : Parity} :
    parityOf x = some y ↔ (x = .none ∧ y = .none) ∨ (x = .even ∧ y = .even) ∨ (x = .odd ∧ y = .odd) := by
  cases x <;> cases y <;> decide

theorem stopBitsOf_eq_some_iff {x : StopField} {y : StopBits} :
    stopBitsOf x = some y ↔ (x = .one ∧ y = .one) ∨ (x = .two ∧ y = .two) := by
  cases x <;> cases y <;> decide

theorem mem_allowList_iff {p : Params} {cfg : LineConfig} :
    cfg ∈ allowList p ↔ (p.platform = .nios → cfg ∈ p.allowNios) ∧ (p.platform = .microblaze → cfg ∈ p.allowMicroblaze) := by
  unfold allowList
  cases p.platform <;> simp

/-- R173: the clauses of `Valid(cfg, flow)`, over the decoded fields. -/
theorem validate_eq_some_iff {p : Params} {bitrate : Word} {lc : LineReq} {cfg : LineConfig} :
    validate p bitrate lc = some cfg ↔
      lc.flow = .none ∧ bitrate ≠ 0#32 ∧ cfg.bitrate = bitrate ∧ cfg.dbits = lc.dbits ∧
      parityOf lc.par = some cfg.par ∧ stopBitsOf lc.stop = some cfg.stop ∧ cfg ∈ allowList p := by
  obtain ⟨rate, dbits, par, stop⟩ := cfg
  unfold validate
  split
  · next par' stop' flow hpar hstop =>
    rw [flow, hpar, hstop]
    by_cases zero : bitrate = 0#32
    · rw [if_pos zero]
      exact ⟨nofun, fun ⟨_, nonzero, _⟩ => absurd zero nonzero⟩
    · rw [if_neg zero]
      split
      · next allowed =>
        constructor
        · rintro ⟨⟩
          exact ⟨rfl, zero, rfl, rfl, rfl, rfl, allowed⟩
        · rintro ⟨-, -, rfl, rfl, ⟨⟩, ⟨⟩, -⟩
          rfl
      · next refused =>
        refine ⟨nofun, ?_⟩
        rintro ⟨-, -, rfl, rfl, ⟨⟩, ⟨⟩, allowed⟩
        exact absurd allowed refused
  · next other =>
    refine ⟨nofun, ?_⟩
    rintro ⟨flow, -, -, -, hpar, hstop, -⟩
    exact absurd hstop (other _ _ flow hpar)

/-- Settles O37: each clause of `Valid` is a clause of the statement. -/
theorem validationIsTheAllowList : Obligations.ValidationIsTheAllowList := by
  intro p bitrate lc cfg
  have positive : bitrate ≠ 0#32 ↔ bitrate.toNat ≥ 1 := by
    rw [ne_eq, ← BitVec.toNat_inj]
    exact Nat.one_le_iff_ne_zero.symm
  rw [validate_eq_some_iff, positive, parityOf_eq_some_iff, stopBitsOf_eq_some_iff, mem_allowList_iff]

/-- R171, R172: a start bit, at most 15 data bits, a parity bit and two stop bits. -/
theorem frameBits_le (cfg : LineConfig) : frameBits cfg ≤ 19 := by
  have := cfg.dbits.isLt
  unfold frameBits
  split <;> split <;> omega

/-- R13: rounding up adds less than the divisor. -/
theorem ceilDiv_mul_lt (a : Nat) {b : Nat} (pos : 0 < b) : ceilDiv a b * b < a + b := by
  have := Nat.div_mul_le_self (a + b - 1) b
  unfold ceilDiv
  omega

theorem ceilDiv_le_self (a : Nat) {b : Nat} (pos : 0 < b) : ceilDiv a b ≤ a :=
  (ceilDiv_le_iff_le_smul pos).2 (Nat.le_mul_of_pos_left a pos)

/-- R172: the frame period fits its word, a bitrate being at least 1. -/
theorem framePeriod_toNat {cfg : LineConfig} (pos : 1 ≤ cfg.bitrate.toNat) :
    (framePeriod cfg).toNat = ceilDiv (frameBits cfg * 1000000) cfg.bitrate.toNat ∧ (framePeriod cfg).toNat ≤ 19000000 := by
  have bits := frameBits_le cfg
  have small := ceilDiv_le_self (frameBits cfg * 1000000) pos
  have period : (framePeriod cfg).toNat = ceilDiv (frameBits cfg * 1000000) cfg.bitrate.toNat := by
    rw [framePeriod, BitVec.toNat_ofNat, Nat.mod_eq_of_lt (by omega)]
  exact ⟨period, by omega⟩

/-- Settles O38: `ceil_div` lies between the quotient and one more, and the largest frame has 19 bits. -/
theorem framePeriodRoundsUp : Obligations.FramePeriodRoundsUp := by
  intro cfg pos bits
  obtain ⟨period, le⟩ := framePeriod_toNat pos
  refine ⟨period, ?_, ?_, le⟩ <;> rw [period]
  · exact le_ceilDiv_mul _ pos
  · exact ceilDiv_mul_lt _ pos

/-! CREATE and SETUP (R174 to R176). -/

/-- R174, R191: the interrupt controller is written where there is an interrupt. -/
theorem ite_isSome_eq {α β : Type} (o : Option α) (x y : β) : (if o.isSome then x else y) = if o = none then y else x := by
  cases o <;> rfl

section
variable {i : Instr} {k : AdmitKind} {lc : LineReq} {cfg : LineConfig} {s : State}

theorem exec_setup (h : i = .uartCreate lc ∨ i = .uartSetup lc) (s : State) : ∃ k, exec i s = setupCommand k i lc s := by
  obtain rfl | rfl := h <;> exact ⟨_, rfl⟩

/-- R170, R175, R176: the first step, where the lifecycle admits the command. -/
theorem exec_setup_start
    (h : (i = .uartCreate lc ∧ s.lc = .unconstructed) ∨ (i = .uartSetup lc ∧ (s.lc = .ready ∨ s.lc = .setupFailed)))
    (start : AtStart s) : ∃ k, uartAdmit k s.lc = none ∧ exec i s = setupStart k i lc s := by
  have start : s.fg.point = none := start
  obtain ⟨rfl, fresh⟩ | ⟨rfl, constructed⟩ := h
  · exact ⟨.create, by rw [fresh]; rfl, by simp only [exec, execUartCreate, setupCommand, start]⟩
  · exact ⟨.configure, uartAdmit_configure constructed, by simp only [exec, execUartSetup, setupCommand, start]⟩

theorem setupStart_rejected (allowed : uartAdmit k s.lc = none) (invalid : validate s.inst s.port.opa lc = none) :
    setupStart k i lc s = .next ({ s with lc := .setupFailed }.answered 0x01#8 0#32 []) := by
  rw [setupStart, admitted_allowed allowed, invalid]
  rfl

theorem setupStart_accepted (allowed : uartAdmit k s.lc = none) (valid : validate s.inst s.port.opa lc = some cfg) :
    setupStart k i lc s = setupConfigure i cfg s := by
  rw [setupStart, admitted_allowed allowed, valid]

theorem setupCommand_ctrl (running : s.fg = .running i (.setupCtrl cfg)) :
    setupCommand k i lc s = setupComplete i cfg s := by
  rw [setupCommand, running, point_running]

theorem setupCommand_end (running : s.fg = .running i .setupEnd) : setupCommand k i lc s = setupFinish s := by
  rw [setupCommand, running, point_running]

end

/-- Settles O39: validation comes first, and its failure ends the command. -/
theorem rejectedConfigurationWritesNothing : Obligations.RejectedConfigurationWritesNothing := by
  intro lc s start invalid
  refine ⟨fun fresh => ?_, fun constructed => ?_⟩
  · obtain ⟨k, allowed, e⟩ := exec_setup_start (.inl ⟨rfl, fresh⟩) start
    exact e.trans (setupStart_rejected allowed invalid)
  · obtain ⟨k, allowed, e⟩ := exec_setup_start (.inr ⟨rfl, constructed⟩) start
    exact e.trans (setupStart_rejected allowed invalid)

/-- Settles O40: validation lets the first step configure the device; the two later steps test nothing. -/
theorem acceptedConfigurationSetsUp : Obligations.AcceptedConfigurationSetsUp := by
  intro i lc cfg s command
  obtain ⟨k, later⟩ := exec_setup command s
  refine ⟨fun admits start valid => ?_, fun running => ?_, fun running => ?_⟩
  · obtain ⟨k, allowed, first⟩ := exec_setup_start admits start
    rw [first, setupStart_accepted allowed valid, ← ite_isSome_eq]
    rfl
  · rw [later, setupCommand_ctrl running, ← ite_isSome_eq]
    rfl
  · rw [later, setupCommand_end running, ← ite_isSome_eq]
    rfl

/-! DESTROY (R191). -/

/-- Settles O41: the first step is admitted on a constructed transport; the second asks nothing. -/
theorem destroyDisablesTheDevice : Obligations.DestroyDisablesTheDevice := by
  intro s
  refine ⟨fun start constructed => ?_, fun running => ?_⟩
  · have start : s.fg.point = none := start
    simp only [exec, execUartDestroy, start, destroyStart, admitted_allowed (uartAdmit_configure constructed)]
    rw [← ite_isSome_eq]
    rfl
  · simp only [exec, execUartDestroy, running, point_running]
    rfl

end Sys2Proof.Machine
end

section
/-!
PROOF. The commands that take from `rx`, clear the buffers or answer a query (42_transport.md R177, R180, R182, R187 to R190).
-/

namespace Sys2Proof.Machine

/-- R73: a critical section whose body does nothing. -/
theorem csExit_csEnter (s : State) : csExit (csEnter s) = s.sectionDone := by
  rw [csEnter_eq, csExit_eq, sectionClosed_sectionOpen]

/-! Taking bytes (R123, R124, R177, R180). -/

theorem bufTake_nonempty {cap : Nat} {b : Buffer} (notEmpty : b.count ≠ 0) (head : b.head < cap) :
    bufTake cap b = .ok (b.store.read b.head, { b with head := inc b.head cap, count := b.count - 1 }) := by
  simp only [bufTake, bufFront_nonempty notEmpty head, bufPop_nonempty notEmpty]

/-- R180: taking `n` bytes gives the `n` oldest, in order, and moves `head` on by `n`. -/
theorem bufTakeMany_live {cap n : Nat} {b : Buffer} (live : b.Live cap) (enough : n ≤ b.count) :
    bufTakeMany cap n b =
      .ok ((b.contents cap).take n, { b with head := (b.head + n) % cap, count := b.count - n }) := by
  induction n generalizing b with
  | zero => simp [bufTakeMany, Nat.mod_eq_of_lt live.head_lt]
  | succ n ih =>
    have notEmpty : b.count ≠ 0 := by omega
    have popped := bufPop_nonempty (cap := cap) notEmpty
    have rest := ih (bufPop_keepsLive live popped) (Nat.le_sub_one_of_lt enough)
    have head : (inc b.head cap + n) % cap = (b.head + (n + 1)) % cap := by
      rw [inc_eq_mod live.head_lt, Nat.mod_add_mod, Nat.add_assoc, Nat.add_comm 1]
    have count : b.count - 1 - n = b.count - (n + 1) := by omega
    rw [bufTakeMany_succ, bufTake_nonempty notEmpty live.head_lt, contents_pop live notEmpty]
    simp only [rest, head, count, List.take_succ_cons]

section
variable {s : State} (ready : s.lc = .ready)
include ready

theorem exec_get :
    exec .uartGet s =
      if s.rx.count = 0 then .next (s.sectionDone.answered 0x02#8 0#32 [])
      else
        onOk (bufTake s.inst.rxCap s.rx) (csEnter s) fun r =>
          .next ((s.sectionDone.setBuf .rx r.2).answered 0x00#8 (r.1.setWidth 32) []) := by
  rw [← csExit_csEnter]
  exact admitted_ready ready _

theorem exec_read (n : Nat) :
    exec (.uartRead n) s =
      if s.rx.count < n then .next (s.sectionDone.answered 0x02#8 0#32 [])
      else
        onOk (bufTakeMany s.inst.rxCap n s.rx) (csEnter s) fun r =>
          .next ((s.sectionDone.setBuf .rx r.2).answered 0x00#8 0#32 r.1) := by
  rw [← csExit_csEnter]
  exact admitted_ready ready _

theorem exec_clear :
    exec .uartClear s =
      .next
        ({ (s.sectionDone.setBuf .tx (bufClear s.tx)).setBuf .rx (bufClear s.rx) with sticky := .zero }.answered
          0x00#8 0#32 []) := by
  rw [← csExit_csEnter]
  exact admitted_ready ready _

theorem stickyQuery_ready (bit : Sticky → Bool) :
    stickyQuery bit s = .next (s.sectionDone.answered 0x00#8 (if bit s.sticky then 1#32 else 0#32) []) := by
  rw [← csExit_csEnter]
  exact admitted_ready ready _

end

/-- Settles O42: the byte at `head`, taken in one critical section. -/
theorem getTakesTheOldestByte : Obligations.GetTakesTheOldestByte := by
  intro s ready
  rw [exec_get ready]
  refine ⟨fun empty => if_pos empty, fun notEmpty head => ?_⟩
  rw [if_neg notEmpty, bufTake_nonempty notEmpty head, onOk_ok, BitVec.ofNat_toNat]
  rfl

/-- Settles O43: the count is compared first, so that the bytes asked for are there to be taken. -/
theorem readIsAllOrNothing : Obligations.ReadIsAllOrNothing := by
  intro n s ready
  rw [exec_read ready]
  refine ⟨fun few => if_pos few, fun enough live => ?_⟩
  rw [if_neg (Nat.not_lt.2 enough), bufTakeMany_live live enough, onOk_ok]
  rfl

/-- Settles O47: CLEAR is two BufClears and the sticky bits, in one critical section. -/
theorem clearEmptiesBothBuffers : Obligations.ClearEmptiesBothBuffers := fun _ ready => exec_clear ready

/-- Settles O48: FRAMEPERIOD takes no critical section; the other three read one bit in one. -/
theorem transportQueriesAnswer : Obligations.TransportQueriesAnswer := fun _ ready =>
  ⟨admitted_ready ready _, stickyQuery_ready ready _, stickyQuery_ready ready _, stickyQuery_ready ready _⟩

end Sys2Proof.Machine
end

section
/-!
PROOF. PUT and WRITE (42_transport.md R178, R179, R181, R193): PutCore on each of its paths, the steps of both commands, and a
WRITE run alone.
-/

namespace Sys2Proof.Machine

/-! PutCore after its status read (R178). -/

section
variable {cap : Nat} {b c : Buffer} {v : Byte}

theorem bufPush_init (hp : bufPush cap b v = .ok c) : c.init = b.init := by
  obtain ⟨-, e⟩ | ⟨-, -, e⟩ | ⟨-, -, e⟩ := bufPush_cases hp <;> cases e
  rfl

theorem bufPush_accepts (live : b.Live cap) (notFull : b.count ≠ cap) (v : Byte) :
    ∃ c, bufPush cap b v = .ok c ∧ c.contents cap = b.contents cap ++ [v] ∧ c.count = b.count + 1 ∧ c.Live cap ∧
      c.init = b.init := by
  obtain ⟨c, hp⟩ := bufPush_live v live notFull
  exact ⟨c, hp, bufPush_contents live hp, bufPush_count hp, bufPush_keepsLive live hp, bufPush_init hp⟩

theorem bufTake_gives (live : b.Live cap) (notEmpty : b.count ≠ 0) :
    ∃ w c, bufTake cap b = .ok (w, c) ∧ b.contents cap = w :: c.contents cap ∧ c.count + 1 = b.count ∧ c.Live cap ∧
      c.init = b.init := by
  have popped := bufPop_nonempty (cap := cap) notEmpty
  exact ⟨_, _, bufTake_nonempty notEmpty live.head_lt, bufPop_contents live popped, bufPop_count popped,
    bufPop_keepsLive live popped, rfl⟩

end

section
variable {f : DevFlags} {s : State}

theorem putCore_fast (v : Byte) (trdy : TrdyHolds f s) (ready : f.trdy = true) (empty : s.tx.count = 0) :
    putCore v f s = .ok (.sent { s with dev := { s.dev with txq := s.dev.txq ++ [v] } }) := by
  simp only [putCore, ready, empty, decide_true, Bool.and_self, if_true, devWriteTx_ready v trdy ready]
  rfl

/-- R178: the oldest byte goes out and the new one in. -/
theorem putCore_rotates (v : Byte) (trdy : TrdyHolds f s) (ready : f.trdy = true) (notEmpty : s.tx.count ≠ 0)
    (live : s.tx.Live s.inst.txCap) :
    ∃ w b, putCore v f s = .ok (.sent { s with tx := b, dev := { s.dev with txq := s.dev.txq ++ [w] } }) ∧
      s.tx.contents s.inst.txCap ++ [v] = w :: b.contents s.inst.txCap ∧ b.count = s.tx.count ∧
      b.Live s.inst.txCap ∧ b.init = s.tx.init := by
  obtain ⟨w, b, taken, oldest, fewer, live', init'⟩ := bufTake_gives live notEmpty
  have count_le := live.count_le
  obtain ⟨c, pushed, newest, more, live'', init''⟩ := bufPush_accepts live' (by omega) v
  refine ⟨w, c, ?_, by rw [oldest, newest, List.cons_append], by omega, live'', init''.trans init'⟩
  simp [putCore, ready, notEmpty, taken, pushed, devWriteTx_ready w trdy ready]

theorem putCore_queues (v : Byte) (busy : f.trdy = false) (room : s.tx.count < s.inst.txCap)
    (live : s.tx.Live s.inst.txCap) :
    ∃ b, putCore v f s = .ok (.queued { s with tx := b }) ∧
      b.contents s.inst.txCap = s.tx.contents s.inst.txCap ++ [v] ∧ b.count = s.tx.count + 1 ∧
      b.Live s.inst.txCap ∧ b.init = s.tx.init := by
  obtain ⟨b, pushed, accepted⟩ := bufPush_accepts live room.ne v
  refine ⟨b, ?_, accepted⟩
  simp only [putCore, busy, Bool.false_and, Bool.false_eq_true, if_false, room, if_true, pushed]
  rfl

theorem putCore_noRoom (v : Byte) (busy : f.trdy = false) (full : s.tx.count = s.inst.txCap) :
    putCore v f s = .ok .full := by
  simp only [putCore, busy, Bool.false_and, Bool.false_eq_true, if_false, full, Nat.lt_irrefl]

end

/-! The steps of PUT (R179). -/

section
variable {v : Byte} {f : DevFlags} {s t : State}

theorem exec_put_start (start : AtStart s) : exec (.uartPut v) s = putStart v s := by
  have start : s.fg.point = none := start
  simp only [exec, execUartPut, start]

theorem exec_put_got (running : s.fg = .running (.uartPut v) (.putGot f)) : exec (.uartPut v) s = putDecide v f s := by
  simp only [exec, execUartPut, running, point_running]

theorem exec_put_ctrl (running : s.fg = .running (.uartPut v) .putCtrl) :
    exec (.uartPut v) s = putArm (.uartPut v) s := by
  simp only [exec, execUartPut, running, point_running]

theorem exec_put_end (running : s.fg = .running (.uartPut v) .putEnd) : exec (.uartPut v) s = putEnd s := by
  simp only [exec, execUartPut, running, point_running]

theorem putDecide_sent (h : putCore v f s = .ok (.sent t)) :
    putDecide v f s = .next { t with fg := .running (.uartPut v) .putCtrl } := by
  rw [putDecide, h]
  rfl

theorem putDecide_queued (h : putCore v f s = .ok (.queued t)) : putDecide v f s = putArm (.uartPut v) t := by
  rw [putDecide, h]
  rfl

theorem putDecide_full (h : putCore v f s = .ok .full) :
    putDecide v f s = .next (s.sectionClosed.answered 0x03#8 0#32 []) := by
  rw [putDecide, h, ← csExit_eq]
  rfl

theorem putEnd_eq (s : State) : putEnd s = .next (s.sectionClosed.answered 0x00#8 0#32 []) := by
  rw [← csExit_eq]
  rfl

end

/-- Settles O44: PutCore's four paths, and the steps around them. -/
theorem putSteps : Obligations.PutSteps := by
  intro v s
  refine ⟨fun start ready => ?_, fun f got trdy ready empty => ?_, fun f got trdy ready notEmpty live => ?_,
    fun f got busy room live => ?_, fun f got busy full => ?_, exec_put_ctrl,
    fun last => (exec_put_end last).trans (putEnd_eq s)⟩
  · rw [exec_put_start start, ← csEnter_eq]
    exact admitted_ready ready _
  · rw [exec_put_got got, putDecide_sent (putCore_fast v trdy ready empty)]
  · obtain ⟨w, b, sent, rotated⟩ := putCore_rotates v trdy ready notEmpty live
    exact ⟨w, b, (exec_put_got got).trans (putDecide_sent sent), rotated⟩
  · obtain ⟨b, queued, accepted⟩ := putCore_queues v busy room live
    exact ⟨b, (exec_put_got got).trans (putDecide_queued queued), accepted⟩
  · rw [exec_put_got got, putDecide_full (putCore_noRoom v busy full)]

/-! The steps of WRITE (R181). -/

section
variable {n : Nat} {v : Byte} {vs rest : List Byte} {f : DevFlags} {s t : State}

/-- R181: the capacity is compared first, then n with 0; the first byte's status is read behind both. -/
theorem exec_write_start (start : AtStart s) (ready : s.lc = .ready) :
    exec (.uartWrite n) s =
      if s.inst.txCap < s.tx.count + n then .next (s.sectionDone.answered 0x03#8 0#32 [])
      else if n = 0 then .next (s.sectionDone.answered 0x00#8 0#32 [])
      else writeLoop n (s.port.din.take n) (csEnter s) := by
  have start : s.fg.point = none := start
  simp only [exec, execUartWrite, start, ← csExit_csEnter]
  exact admitted_ready ready _

theorem exec_write_got (running : s.fg = .running (.uartWrite n) (.writeGot rest f)) :
    exec (.uartWrite n) s = writeDecide n rest f s := by
  simp only [exec, execUartWrite, running, point_running]

theorem exec_write_next (running : s.fg = .running (.uartWrite n) (.writeNext rest)) :
    exec (.uartWrite n) s = writeLoop n rest s := by
  simp only [exec, execUartWrite, running, point_running]

theorem exec_write_end (running : s.fg = .running (.uartWrite n) .putEnd) : exec (.uartWrite n) s = putEnd s := by
  simp only [exec, execUartWrite, running, point_running]

theorem writeDecide_sent (h : putCore v f s = .ok (.sent t)) :
    writeDecide n (v :: vs) f s = .next { t with fg := .running (.uartWrite n) (.writeNext vs) } := by
  rw [writeDecide, h]
  rfl

theorem writeDecide_queued (h : putCore v f s = .ok (.queued t)) : writeDecide n (v :: vs) f s = writeLoop n vs t := by
  rw [writeDecide, h]
  rfl

end

/-- Settles O45: the first step's comparisons, PutCore's paths for each byte, and the steps around them. -/
theorem writeChecksCapacityFirst : Obligations.WriteChecksCapacityFirst := by
  intro n s
  refine ⟨fun start ready tooMany => ?_, fun start ready fits zero => ?_, fun v vs start ready fits din hn => ?_,
    fun v vs f got trdy ready empty => ?_, fun v vs f got trdy ready notEmpty live => ?_,
    fun v vs f got busy room live => ?_, fun v vs next => exec_write_next next, fun next => exec_write_next next,
    fun last => (exec_write_end last).trans (putEnd_eq s)⟩
  · rw [exec_write_start start ready, if_pos tooMany]
  · rw [exec_write_start start ready, if_neg (Nat.not_lt.2 fits), if_pos zero]
  · rw [exec_write_start start ready, if_neg (Nat.not_lt.2 fits), if_neg (by omega), din,
      List.take_of_length_le (by simp [hn]), ← csEnter_eq]
    rfl
  · rw [exec_write_got got, writeDecide_sent (putCore_fast v trdy ready empty)]
  · obtain ⟨w, b, sent, rotated⟩ := putCore_rotates v trdy ready notEmpty live
    exact ⟨w, b, (exec_write_got got).trans (writeDecide_sent sent), rotated⟩
  · obtain ⟨b, queued, accepted⟩ := putCore_queues v busy room live
    refine ⟨b, ?_, accepted⟩
    rw [exec_write_got got, writeDecide_queued queued]
    cases vs <;> rfl

/-! A WRITE run alone (R181, R193). -/

/-- The state with other bytes in `tx` and in the hardware queue. -/
def State.wroteTx (s : State) (b : Buffer) (q : List Byte) : State := { s with tx := b, dev := { s.dev with txq := q } }

theorem wroteTx_txStream {s : State} {b : Buffer} {q l : List Byte}
    (gain : q ++ b.contents s.inst.txCap = s.dev.txq ++ s.tx.contents s.inst.txCap ++ l) :
    (s.wroteTx b q).txStream = s.txStream ++ l := by
  have gain := congrArg (s.dev.lineOut ++ s.dev.shifter.toList ++ ·) gain
  simpa only [State.txStream, State.wroteTx, List.append_assoc] using gain

/-- R178, R181: with room in `tx`, PutCore accepts the byte, sent or queued, behind those accepted before. -/
theorem putCore_accepts {f : DevFlags} {s : State} (v : Byte) (live : s.tx.Live s.inst.txCap)
    (room : s.tx.count < s.inst.txCap) (trdy : TrdyHolds f s) :
    ∃ b q, (putCore v f s = .ok (.sent (s.wroteTx b q)) ∨ putCore v f s = .ok (.queued (s.wroteTx b q))) ∧
      b.count ≤ s.tx.count + 1 ∧ b.Live s.inst.txCap ∧ (s.wroteTx b q).txStream = s.txStream ++ [v] := by
  cases ready : f.trdy with
  | true =>
    by_cases empty : s.tx.count = 0
    · refine ⟨s.tx, s.dev.txq ++ [v], .inl (putCore_fast v trdy ready empty), Nat.le_succ _, live, wroteTx_txStream ?_⟩
      simp only [contents_of_empty empty, List.append_nil]
    · obtain ⟨w, b, sent, rotated, count, live', -⟩ := putCore_rotates v trdy ready empty live
      refine ⟨b, s.dev.txq ++ [w], .inl sent, by omega, live', wroteTx_txStream ?_⟩
      rw [List.append_assoc, List.append_assoc, rotated, List.singleton_append]
  | false =>
    obtain ⟨b, queued, contents, count, live', -⟩ := putCore_queues v ready room live
    refine ⟨b, s.dev.txq, .inr queued, count.le, live', wroteTx_txStream ?_⟩
    rw [contents, List.append_assoc]

/-- R181: a WRITE's last two steps, from a state in which all its bytes are accepted: TXE, then the end. -/
def State.writeDone (s : State) : State := finish .ok 0#32 (csExit (setIer { s.ier with txe := true } s))

/-- Where an outcome of a WRITE leads when FG runs alone: within `budget` steps to its end, with the bytes `rest` accepted
behind those of `s`. -/
def WriteEnds (n budget : Nat) (rest : List Byte) (s : State) (o : Outcome) : Prop :=
  ∃ t k b q, o = .next t ∧ k ≤ budget ∧ execSteps k (.uartWrite n) t = .next (s.wroteTx b q).writeDone ∧
    (s.wroteTx b q).txStream = s.txStream ++ rest

section
variable {n budget : Nat} {rest l : List Byte} {s t : State}

/-- One step more before. -/
theorem WriteEnds.step (h : WriteEnds n budget rest s (exec (.uartWrite n) t)) :
    WriteEnds n (budget + 1) rest s (.next t) := by
  obtain ⟨u, k, b, q, first, le, later, stream⟩ := h
  exact ⟨t, k + 1, b, q, rfl, Nat.succ_le_succ le, by rw [execSteps, first]; exact later, stream⟩

/-- The bytes `l` accepted before. -/
theorem WriteEnds.after {b : Buffer} {q : List Byte} {o : Outcome} (h : WriteEnds n budget rest (s.wroteTx b q) o)
    (stream : (s.wroteTx b q).txStream = s.txStream ++ l) : WriteEnds n budget (l ++ rest) s o := by
  obtain ⟨u, k, b', q', next, le, run, stream'⟩ := h
  exact ⟨u, k, b', q', next, le, run, by rw [← List.append_assoc, ← stream]; exact stream'⟩

theorem WriteEnds.mono {budget' : Nat} {o : Outcome} (h : WriteEnds n budget rest s o) (le : budget ≤ budget') :
    WriteEnds n budget' rest s o := by
  obtain ⟨t, k, b, q, next, within, run, stream⟩ := h
  exact ⟨t, k, b, q, next, within.trans le, run, stream⟩

/-- R36: the point that FG has reached is no part of what the loop looks at. -/
theorem writeLoop_fg (n : Nat) (rest : List Byte) (s : State) (g : FgState) :
    writeLoop n rest { s with fg := g } = writeLoop n rest s := by
  cases rest <;> rfl

/-- R181: a byte's decision, where the loop ends from every state it may go on from; a byte that was sent needs one step more,
for the next status read or TXE. -/
theorem exec_write_got_ends {v : Byte} {f : DevFlags} (got : s.fg = .running (.uartWrite n) (.writeGot (v :: rest) f))
    (trdy : TrdyHolds f s) (live : s.tx.Live s.inst.txCap) (room : s.tx.count + (rest.length + 1) ≤ s.inst.txCap)
    (loop : ∀ b q, b.Live s.inst.txCap → b.count + rest.length ≤ s.inst.txCap →
      WriteEnds n budget rest (s.wroteTx b q) (writeLoop n rest (s.wroteTx b q))) :
    WriteEnds n (budget + 1) (v :: rest) s (exec (.uartWrite n) s) := by
  obtain ⟨b, q, result, count, live', stream⟩ := putCore_accepts v live (by omega) trdy
  have loop := loop b q live' (by omega)
  rw [exec_write_got got]
  obtain sent | queued := result
  · rw [writeDecide_sent sent]
    rw [← writeLoop_fg, ← exec_write_next rfl] at loop
    exact loop.step.after stream
  · rw [writeDecide_queued queued]
    exact (loop.mono (Nat.le_succ _)).after stream

/-- R181: from the head of WRITE's loop two steps for each byte suffice, and one for the end. -/
theorem writeLoop_ends (n : Nat) (live : s.tx.Live s.inst.txCap) (room : s.tx.count + rest.length ≤ s.inst.txCap) :
    WriteEnds n (2 * rest.length + 1) rest s (writeLoop n rest s) := by
  induction rest generalizing s with
  | nil => exact ⟨_, 1, s.tx, s.dev.txq, rfl, le_rfl, rfl, (List.append_nil _).symm⟩
  | cons v vs ih =>
    have decided := exec_write_got_ends
      (s := { s with fg := .running (.uartWrite n) (.writeGot (v :: vs) (devStatus s)) }) rfl (trdyHolds_devStatus s) live
      room fun _ _ live' room' => ih live' room'
    exact decided.step

end

/-- Settles O46: the first step, and then WRITE's loop from its head. -/
theorem writeAcceptsAllBytesInOrder : Obligations.WriteAcceptsAllBytesInOrder := by
  intro n s inv h0 presented ready length pos fits
  have start : AtStart s := by rw [AtStart, presented]; rfl
  have live : s.tx.Live s.inst.txCap := inv.tx_live_of_ready ready
  have loop : WriteEnds n (2 * n + 1) s.port.din (csEnter s) (writeLoop n s.port.din (csEnter s)) :=
    length ▸ writeLoop_ends (s := csEnter s) n live (by rw [length]; exact fits)
  have first : exec (.uartWrite n) s = writeLoop n s.port.din (csEnter s) := by
    rw [exec_write_start start ready, if_neg (Nat.not_lt.2 fits), if_neg (by omega), List.take_of_length_le length.le]
  rw [← first] at loop
  obtain ⟨t, k, b, q, next, le, run, stream⟩ := loop.step
  cases next
  exact ⟨k, _, le, run, rfl, rfl, rfl, rfl, rfl, rfl, rfl, csExit_csEnter_irqc s, stream⟩

end Sys2Proof.Machine
end

section
/-!
PROOF. FLUSH (42_transport.md R183 to R186, 44_device.md R245): its prelude, and the steps of its drain and idle phases.
-/

namespace Sys2Proof.Machine

/-! The prelude (R183). -/

theorem idleBoundOf_eq (depth : Nat) (fpc : Word) :
    idleBoundOf depth fpc = sized ((depth + 1) * fpc.toNat) ((depth + 1) * fpc.toNat) .convOverflow := rfl

/-- R183: the frame period in counts, and from it the idle bound, in the state that CtrEnsureInit leaves. -/
theorem exec_flush_start {s : State} (start : AtStart s) (ready : s.lc = .ready) :
    exec .uartFlush s =
      onOk (conversion .ctrUs2cnt s.inst.ctrHz s.fp) s.counterOn fun fpc =>
        onOk (idleBoundOf s.inst.hwTxDepth fpc) s.counterOn fun bound =>
          pauseAt .uartFlush (.flushDrain fpc bound s.counterOn.ctr.cnt) s.counterOn := by
  have start : s.fg.point = none := start
  simp only [exec, execUartFlush, start, flushStart, admitted_ready ready, convUs_eq, ← ensureInit_eq]
  rfl

/-- Settles O49: the two products, the second taken of the first's value where that fits. -/
theorem flushPrelude : Obligations.FlushPrelude := by
  intro s start ready fpc
  have period : conversion .ctrUs2cnt s.inst.ctrHz s.fp = sized fpc fpc .convOverflow := rfl
  rw [exec_flush_start start ready, period]
  by_cases fits : fpc ≤ 2 ^ 32 - 1
  · have value : (BitVec.ofNat 32 fpc).toNat = fpc := by
      rw [BitVec.toNat_ofNat, Nat.mod_eq_of_lt (by omega)]
    rw [sized_fits fits, onOk_ok, idleBoundOf_eq, value]
    refine ⟨fun large => ?_, fun _ fits' => ?_⟩
    · rw [sized_overflows (large.resolve_left (Nat.not_lt.2 fits))]
      rfl
    · rw [sized_fits fits']
      rfl
  · refine ⟨fun _ => ?_, fun fits' => absurd fits' fits⟩
    rw [sized_overflows (Nat.lt_of_not_le fits)]
    rfl

/-! What a sample decides (R155, R184 to R186). -/

section
variable (fpc bound base : Word) (s : State)

theorem flushBase_eq :
    flushBase fpc bound s =
      .next { s.counterOn with fg := .running .uartFlush (.flushDrain fpc bound s.counterOn.ctr.cnt) } := by
  rw [← ensureInit_eq]
  rfl

theorem flushBound_eq :
    flushBound fpc bound base s =
      if fpc.toNat ≤ (s.elapsed base).toNat then .next (s.counterOn.answered 0x04#8 0#32 [])
      else .next { s.counterOn with fg := .running .uartFlush (.flushDrain fpc bound base) } := by
  rw [← diff_eq, ← ensureInit_eq]
  rfl

theorem flushWait_eq :
    flushWait fpc base s =
      if fpc.toNat ≤ (s.elapsed base).toNat then .next { s.counterOn with fg := .running .uartFlush .flushEnd }
      else pauseAt .uartFlush (.flushWait fpc base) s.counterOn := by
  rw [← diff_eq, ← ensureInit_eq]
  rfl

/-- R186: TXE is cleared in a section of its own. -/
theorem flushEnd_eq :
    flushEnd s =
      .next { s.sectionDone.withEnables ⟨s.ier.rxe, false, s.ier.erre⟩ with fg := .running .uartFlush .flushDone } := by
  rw [← csExit_csEnter]
  rfl

end

/-! The drain phase (R184). -/

section
variable {fpc bound base : Word} {f : DevFlags} {s : State}

/-- R184 D1, R185 I0: with `tx` empty the section is left at once, and the idle phase takes its base. -/
theorem flushDrain_empty (empty : s.tx.count = 0) :
    flushDrain fpc bound base s =
      .next
        { s.sectionDone.counterOn with
          fg := .running .uartFlush (.flushIdle fpc bound s.counterOn.ctr.cnt) } := by
  rw [← csExit_csEnter, ← ensureInit_eq, ← ensureInit_eq]
  exact if_pos empty

theorem flushDrain_bytes (notEmpty : s.tx.count ≠ 0) :
    flushDrain fpc bound base s =
      .next
        { s.sectionOpen with
          fg := .running .uartFlush (.flushGot fpc bound base (statusFlags s.inst.hwTxDepth s.dev)) } := by
  rw [← csEnter_eq]
  exact if_neg notEmpty

theorem flushSend_ready (ready : f.trdy = true) (trdy : TrdyHolds f s) (notEmpty : s.tx.count ≠ 0)
    (head : s.tx.head < s.inst.txCap) :
    flushSend fpc bound base f s =
      .next
        { s.sectionClosed with
          tx := { s.tx with head := inc s.tx.head s.inst.txCap, count := s.tx.count - 1 }
          dev := { s.dev with txq := s.dev.txq ++ [s.tx.store.read s.tx.head] }
          fg := .running .uartFlush (.flushBase fpc bound) } := by
  rw [flushSend, if_pos ready, bufTake_nonempty notEmpty head, onOk_ok, devWriteTx_ready _ trdy ready, onOk_ok, ← csExit_eq]
  rfl

theorem flushSend_busy (busy : f.trdy = false) :
    flushSend fpc bound base f s =
      .next { s.sectionClosed with fg := .running .uartFlush (.flushBound fpc bound base) } := by
  rw [flushSend, busy, ← csExit_eq]
  rfl

end

/-- Settles O50: a step at each point of the drain phase. -/
theorem flushDrainPhase : Obligations.FlushDrainPhase := by
  intro fpc bound base s
  unfold exec execUartFlush
  refine ⟨fun base => ?_, fun drain empty => ?_, fun drain notEmpty => ?_, fun f got ready trdy notEmpty head => ?_,
    fun f got busy => ?_, fun sample => ?_⟩
  · rw [base]
    exact flushBase_eq fpc bound s
  · rw [drain]
    exact flushDrain_empty empty
  · rw [drain]
    exact flushDrain_bytes notEmpty
  · rw [got]
    exact flushSend_ready ready trdy notEmpty head
  · rw [got]
    exact flushSend_busy busy
  · rw [sample, point_running]
    simp only
    rw [flushBound_eq]
    exact ⟨fun due => if_pos due, fun early => if_neg (Nat.not_le.2 early)⟩

/-! The idle phase and the end (R185, R186, R245). -/

section
variable {fpc bound base : Word} {f : DevFlags} {s : State}

theorem flushIdle_eq :
    flushIdle fpc bound base s =
      .next
        { s.sectionDone with
          fg := .running .uartFlush (.flushTest fpc bound base (statusFlags s.inst.hwTxDepth s.dev)) } := by
  rw [← csExit_csEnter]
  rfl

theorem flushTest_nios (nios : s.inst.platform = .nios) (idle : f.tmt = true) :
    flushTest fpc bound base f s = flushEnd s := by
  simp only [flushTest, nios, devIdle, idle, if_true]

theorem flushTest_microblaze (microblaze : s.inst.platform = .microblaze) (idle : f.txEmpty = true) :
    flushTest fpc bound base f s =
      .next { s.counterOn with fg := .running .uartFlush (.flushWait fpc s.counterOn.ctr.cnt) } := by
  simp only [flushTest, microblaze, devIdle, idle, if_true, ensureInit_eq]
  rfl

theorem flushTest_sending (sending : devIdle s.inst.platform f = false) :
    flushTest fpc bound base f s =
      if bound.toNat ≤ (s.elapsed base).toNat then .next (s.counterOn.answered 0x04#8 0#32 [])
      else .next { s.counterOn with fg := .running .uartFlush (.flushIdle fpc bound base) } := by
  rw [flushTest, sending, ← diff_eq, ← ensureInit_eq]
  rfl

/-- R245: the platform's flag for a device that is not idle. -/
theorem devIdle_eq_false {p : Platform}
    (sending : (p = .nios ∧ f.tmt = false) ∨ (p = .microblaze ∧ f.txEmpty = false)) : devIdle p f = false := by
  obtain ⟨rfl, h⟩ | ⟨rfl, h⟩ := sending <;> exact h

end

/-- Settles O51: a step at each point of the idle phase, the idle test by the platform's flag. -/
theorem flushIdlePhaseAndEnd : Obligations.FlushIdlePhaseAndEnd := by
  intro fpc bound base s
  unfold exec execUartFlush
  refine ⟨fun read => ?_, fun f test => ?_, fun sample => ?_, fun last => ?_, fun done => ?_⟩
  · rw [read]
    exact flushIdle_eq
  · rw [test, point_running]
    simp only
    refine ⟨fun nios idle => ?_, fun microblaze idle => ?_, fun sending => ?_⟩
    · rw [flushTest_nios nios idle, flushEnd_eq]
    · exact flushTest_microblaze microblaze idle
    · rw [flushTest_sending (devIdle_eq_false sending)]
      exact ⟨fun due => if_pos due, fun early => if_neg (Nat.not_le.2 early)⟩
  · have stay : pauseAt .uartFlush (.flushWait fpc base) s.counterOn = .next s.counterOn :=
      pauseAt_running ((counterOn_fg s).trans sample)
    rw [sample, point_running]
    simp only
    rw [flushWait_eq, stay]
    exact ⟨fun due => if_pos due, fun early => if_neg (Nat.not_le.2 early)⟩
  · rw [last]
    exact flushEnd_eq s
  · rw [done]
    rfl

end Sys2Proof.Machine
end

section
/-!
PROOF. Line errors never stop a transfer (42_transport.md R192): the meanings run in step on two states that differ in
`sticky` alone, for no condition they test reads it.
-/

namespace Sys2Proof.Machine

/-! Two states, two outcomes and two results of SERVICE that differ in `sticky` alone. -/

/-- The two states agree in everything but `sticky`. -/
def Twin (t u : State) : Prop := t = { u with sticky := t.sticky }

/-- Two results of a step of SERVICE that agree in everything but `sticky`. -/
def SvcTwin : SvcResult → SvcResult → Prop
  | .pause t p, .pause u q => p = q ∧ Twin t u
  | .done t, .done u => Twin t u
  | .halt d t, .halt e u => d = e ∧ Twin t u
  | _, _ => False

section
variable {t u : State} {c : Prop} [Decidable c]

theorem SameButSticky.ite {a b a' b' : Outcome} (pos : SameButSticky a a') (neg : SameButSticky b b') :
    SameButSticky (if c then a else b) (if c then a' else b') := by
  split
  · exact pos
  · exact neg

theorem SvcTwin.ite {a b a' b' : SvcResult} (pos : SvcTwin a a') (neg : SvcTwin b b') :
    SvcTwin (if c then a else b) (if c then a' else b') := by
  split
  · exact pos
  · exact neg

theorem SameButSticky.stopped (e : Stop) (twin : Twin t u) : SameButSticky (e.outcome t) (e.outcome u) := by
  cases e with
  | raise c => exact congrArg (raiseFault c) twin
  | stop f => rfl

/-- An operation's value, or a value that `g` gives for it in the other state. -/
theorem SameButSticky.onOk_map {α β : Type} {r : Except Stop α} {g : α → β} {k : β → Outcome} {k' : α → Outcome}
    (twin : Twin t u) (ok : ∀ a, SameButSticky (k (g a)) (k' a)) : SameButSticky (onOk (r.map g) t k) (onOk r u k') := by
  cases r with
  | ok a => exact ok a
  | error e => exact .stopped e twin

theorem SameButSticky.onOk {α : Type} {r : Except Stop α} {k k' : α → Outcome} (twin : Twin t u)
    (ok : ∀ a, SameButSticky (k a) (k' a)) : SameButSticky (onOk r t k) (onOk r u k') := by
  cases r with
  | ok a => exact ok a
  | error e => exact .stopped e twin

theorem SameButSticky.admitted {k : AdmitKind} {a b : Outcome} (twin : Twin t u) (body : SameButSticky a b) :
    SameButSticky (admitted k t a) (admitted k u b) := by
  have lc : t.lc = u.lc := by rw [twin]
  unfold Machine.admitted
  rw [lc]
  cases uartAdmit k u.lc with
  | none => exact body
  | some c => exact .stopped (.raise c) twin

theorem SvcTwin.serviceCommand {a b : SvcResult} (h : SvcTwin a b) :
    SameButSticky (serviceCommand a) (serviceCommand b) := by
  cases a with
  | pause t p =>
    cases b with
    | pause u q =>
      obtain ⟨rfl, twin⟩ := h
      exact congrArg (fun s : State => { s with fg := .running .uartService (.svc p) }) twin
    | _ => exact h.elim
  | done t =>
    cases b with
    | done u => exact congrArg (fun s => finish .ok 0#32 (csExit s)) h
    | _ => exact h.elim
  | halt e t =>
    cases b with
    | halt e' u =>
      obtain ⟨rfl, twin⟩ := h
      exact .stopped e twin
    | _ => exact h.elim

end

variable (s : State) (k : Sticky)

/-! The device and SERVICE (R211 to R214). -/

theorem devWriteTx_withSticky (v : Byte) :
    devWriteTx v { s with sticky := k } = (devWriteTx v s).map fun t => { t with sticky := k } := by
  obtain ⟨full, e⟩ | ⟨room, e⟩ := devWriteTx_cases (v := v) (s := s) rfl
  · rw [e]
    exact if_pos full
  · rw [e]
    exact if_neg room

theorem serviceRefill_twin (f : DevFlags) : SvcTwin (serviceRefill f { s with sticky := k }) (serviceRefill f s) := by
  unfold serviceRefill
  refine .ite (.ite ⟨rfl, rfl⟩ ?_) rfl
  dsimp only
  cases bufTake s.inst.txCap s.tx with
  | error e => exact ⟨rfl, rfl⟩
  | ok r =>
    simp only [devWriteTx_withSticky]
    cases devWriteTx r.1 s <;> exact ⟨rfl, rfl⟩

theorem serviceLoop_twin (f : DevFlags) (n : Nat) :
    SvcTwin (serviceLoop f n { s with sticky := k }) (serviceLoop f n s) :=
  .ite (.ite ⟨rfl, rfl⟩ ⟨rfl, rfl⟩) (serviceRefill_twin s k f)

theorem serviceDrain_twin (f : DevFlags) : SvcTwin (serviceDrain f { s with sticky := k }) (serviceDrain f s) :=
  .ite (serviceLoop_twin s k f 0) (serviceRefill_twin s k f)

/-- R213: the deposit reads no sticky bit; where `rx` is full it sets one. -/
theorem serviceDeposit_twin (v : Byte) :
    (∃ e, serviceDeposit v { s with sticky := k } = .error e ∧ serviceDeposit v s = .error e) ∨
    (∃ t u, serviceDeposit v { s with sticky := k } = .ok t ∧ serviceDeposit v s = .ok u ∧ Twin t u) := by
  unfold serviceDeposit
  dsimp only
  by_cases full : s.rx.count = s.inst.rxCap
  · rw [if_pos full, if_pos full]
    exact .inr ⟨_, _, rfl, rfl, rfl⟩
  · rw [if_neg full, if_neg full]
    cases bufPush s.inst.rxCap s.rx v with
    | error e => exact .inl ⟨e, rfl, rfl⟩
    | ok b => exact .inr ⟨_, _, rfl, rfl, rfl⟩

theorem serviceStep_twin (p : SvcPoint) : SvcTwin (serviceStep p { s with sticky := k }) (serviceStep p s) := by
  cases p with
  | h0 => exact ⟨rfl, rfl⟩
  | h1 f => exact .ite ⟨rfl, rfl⟩ (serviceDrain_twin s k f)
  | h2 f => exact serviceDrain_twin s k f
  | h2read f n =>
    simp only [serviceStep, devReadRx]
    cases s.dev.rxq <;> exact ⟨rfl, rfl⟩
  | h2push f n v =>
    obtain ⟨e, h, h'⟩ | ⟨t, u, h, h', twin⟩ := serviceDeposit_twin s k v <;> simp only [serviceStep, h, h']
    · exact ⟨rfl, rfl⟩
    · rw [twin]
      exact serviceLoop_twin u t.sticky f (n + 1)
  | h3 f => exact serviceRefill_twin s k f
  | h4 => rfl

/-! The commands, by the operation they share. -/

theorem bufCommand_sameButSticky (c : Bool) (b : BufId) (body : Nat → Buffer → Except Stop (Buffer × Word)) :
    SameButSticky (bufCommand c b body { s with sticky := k }) (bufCommand c b body s) := by
  have same : bufAdmit c b { s with sticky := k } = bufAdmit c b s := by cases b <;> rfl
  unfold bufCommand
  rw [same]
  cases bufAdmit c b s with
  | some c => rfl
  | none => cases b <;> exact .onOk rfl fun _ => rfl

theorem ctrPure_sameButSticky (r : Except Stop Word) : SameButSticky (ctrPure r { s with sticky := k }) (ctrPure r s) :=
  .onOk rfl fun _ => rfl

theorem waitCommand_sameButSticky (i : Instr) (conv : Nat → Word → Except Stop Word) :
    SameButSticky (waitCommand i conv { s with sticky := k }) (waitCommand i conv s) := by
  have start : SameButSticky (waitStart i conv { s with sticky := k }) (waitStart i conv s) := .onOk rfl fun _ => rfl
  unfold waitCommand
  dsimp only
  cases s.fg.point with
  | none => exact start
  | some p =>
    cases p with
    | waitSample t base => exact .ite rfl rfl
    | _ => exact start

theorem setupCommand_sameButSticky (row : AdmitKind) (i : Instr) (lc : LineReq) :
    SameButSticky (setupCommand row i lc { s with sticky := k }) (setupCommand row i lc s) := by
  have start : SameButSticky (setupStart row i lc { s with sticky := k }) (setupStart row i lc s) := by
    refine .admitted rfl ?_
    dsimp only
    cases validate s.inst s.port.opa lc <;> rfl
  unfold setupCommand
  dsimp only
  cases s.fg.point with
  | none => exact start
  | some p =>
    cases p with
    | setupCtrl cfg => rfl
    | setupEnd => rfl
    | _ => exact start

theorem execUartGet_sameButSticky : SameButSticky (execUartGet { s with sticky := k }) (execUartGet s) :=
  .admitted rfl (.ite rfl (.onOk rfl fun _ => rfl))

theorem execUartRead_sameButSticky (n : Nat) :
    SameButSticky (execUartRead n { s with sticky := k }) (execUartRead n s) :=
  .admitted rfl (.ite rfl (.onOk rfl fun _ => rfl))

theorem execUartDestroy_sameButSticky : SameButSticky (execUartDestroy { s with sticky := k }) (execUartDestroy s) := by
  have start : SameButSticky (destroyStart { s with sticky := k }) (destroyStart s) := .admitted rfl rfl
  unfold execUartDestroy
  dsimp only
  cases s.fg.point with
  | none => exact start
  | some p =>
    cases p with
    | destroyEnd => rfl
    | _ => exact start

theorem execUartService_sameButSticky : SameButSticky (execUartService { s with sticky := k }) (execUartService s) := by
  unfold execUartService
  dsimp only
  cases s.fg.point with
  | none => exact .admitted rfl rfl
  | some p =>
    cases p with
    | svc p => exact (serviceStep_twin s k p).serviceCommand
    | _ => exact .admitted rfl rfl

/-! PUT and WRITE (R178, R179, R181). -/

/-- What PutCore returns, with other sticky bits. -/
def PutResult.withSticky (k : Sticky) : PutResult → PutResult
  | .sent t => .sent { t with sticky := k }
  | .queued t => .queued { t with sticky := k }
  | .full => .full

theorem putCore_withSticky (v : Byte) (f : DevFlags) :
    putCore v f { s with sticky := k } = (putCore v f s).map (PutResult.withSticky k) := by
  unfold putCore
  simp only [devWriteTx_withSticky]
  by_cases fast : (f.trdy && decide (s.tx.count = 0)) = true
  · rw [if_pos fast, if_pos fast]
    cases devWriteTx v s <;> rfl
  · rw [if_neg fast, if_neg fast]
    by_cases ready : f.trdy = true
    · rw [if_pos ready, if_pos ready]
      cases bufTake s.inst.txCap s.tx with
      | error e => rfl
      | ok r =>
        dsimp only
        cases devWriteTx r.1 s <;> cases bufPush s.inst.txCap r.2 v <;> rfl
    · rw [if_neg ready, if_neg ready]
      by_cases room : s.tx.count < s.inst.txCap
      · rw [if_pos room, if_pos room]
        cases bufPush s.inst.txCap s.tx v <;> rfl
      · rw [if_neg room, if_neg room]
        rfl

theorem execUartPut_sameButSticky (v : Byte) : SameButSticky (execUartPut v { s with sticky := k }) (execUartPut v s) := by
  have start : SameButSticky (putStart v { s with sticky := k }) (putStart v s) := .admitted rfl rfl
  unfold execUartPut
  dsimp only
  cases s.fg.point with
  | none => exact start
  | some p =>
    cases p with
    | putGot f =>
      simp only [putDecide, putCore_withSticky]
      exact .onOk_map rfl fun r => by cases r <;> rfl
    | putCtrl => rfl
    | putEnd => rfl
    | _ => exact start

theorem writeLoop_sameButSticky (n : Nat) (rest : List Byte) :
    SameButSticky (writeLoop n rest { s with sticky := k }) (writeLoop n rest s) := by
  cases rest <;> rfl

theorem writeDecide_sameButSticky (n : Nat) (rest : List Byte) (f : DevFlags) :
    SameButSticky (writeDecide n rest f { s with sticky := k }) (writeDecide n rest f s) := by
  cases rest with
  | nil => rfl
  | cons v vs =>
    simp only [writeDecide, putCore_withSticky]
    refine .onOk_map rfl fun r => ?_
    cases r with
    | sent t => rfl
    | queued t => exact writeLoop_sameButSticky t k n vs
    | full => exact writeLoop_sameButSticky s k n vs

theorem execUartWrite_sameButSticky (n : Nat) :
    SameButSticky (execUartWrite n { s with sticky := k }) (execUartWrite n s) := by
  have start : SameButSticky (writeStart n { s with sticky := k }) (writeStart n s) :=
    .admitted rfl (.ite rfl (.ite rfl (writeLoop_sameButSticky (csEnter s) k n _)))
  unfold execUartWrite
  dsimp only
  cases s.fg.point with
  | none => exact start
  | some p =>
    cases p with
    | writeGot rest f => exact writeDecide_sameButSticky s k n rest f
    | writeNext rest => exact writeLoop_sameButSticky s k n rest
    | putEnd => rfl
    | _ => exact start

/-! FLUSH (R183 to R186). -/

theorem flushSend_sameButSticky (fpc bound base : Word) (f : DevFlags) :
    SameButSticky (flushSend fpc bound base f { s with sticky := k }) (flushSend fpc bound base f s) := by
  unfold flushSend
  simp only [devWriteTx_withSticky]
  exact .ite (.onOk rfl fun _ => .onOk_map rfl fun _ => rfl) rfl

theorem flushTest_sameButSticky (fpc bound base : Word) (f : DevFlags) :
    SameButSticky (flushTest fpc bound base f { s with sticky := k }) (flushTest fpc bound base f s) := by
  refine .ite ?_ (.ite rfl rfl)
  dsimp only
  cases s.inst.platform <;> rfl

theorem execUartFlush_sameButSticky : SameButSticky (execUartFlush { s with sticky := k }) (execUartFlush s) := by
  have start : SameButSticky (flushStart { s with sticky := k }) (flushStart s) :=
    .admitted rfl (.onOk rfl fun _ => .onOk rfl fun _ => rfl)
  unfold execUartFlush
  dsimp only
  cases s.fg.point with
  | none => exact start
  | some p =>
    cases p with
    | flushBase | flushIdle | flushEnd | flushDone => rfl
    | flushDrain | flushBound | flushWait => exact .ite rfl rfl
    | flushGot fpc bound base f => exact flushSend_sameButSticky s k fpc bound base f
    | flushTest fpc bound base f => exact flushTest_sameButSticky s k fpc bound base f
    | _ => exact start

/-- Settles O58: command by command; each tests the same conditions in both states, and takes its values from the same
fields. -/
theorem lineErrorsNeverStopATransfer : Obligations.LineErrorsNeverStopATransfer := by
  intro i s k noOverrun noFraming noParity
  unfold exec
  cases i with
  | bufClear | bufPush | bufPop | bufFront | bufEmpty | bufFull | bufSize | bufAvail | bufMaxsize =>
    exact bufCommand_sameButSticky s k _ _ _
  | ctrNow | ctrTimeout => rfl
  | ctrNs2cnt | ctrUs2cnt | ctrMs2cnt | ctrDiff | ctrMeasns | ctrMeasus | ctrMeasms => exact ctrPure_sameButSticky s k _
  | ctrWaitns | ctrWaitus | ctrWaitms => exact waitCommand_sameButSticky s k _ _
  | uartSetup | uartCreate => exact setupCommand_sameButSticky s k _ _ _
  | uartGet => exact execUartGet_sameButSticky s k
  | uartPut v => exact execUartPut_sameButSticky s k v
  | uartRead n => exact execUartRead_sameButSticky s k n
  | uartWrite n => exact execUartWrite_sameButSticky s k n
  | uartClear | uartFrameperiod => exact .admitted rfl rfl
  | uartFlush => exact execUartFlush_sameButSticky s k
  | uartOverrun => exact absurd rfl noOverrun
  | uartFraming => exact absurd rfl noFraming
  | uartParity => exact absurd rfl noParity
  | uartDestroy => exact execUartDestroy_sameButSticky s k
  | uartService => exact execUartService_sameButSticky s k

end Sys2Proof.Machine
end

section
/-!
PROOF. No step stops (43_handler.md R218, 10_state.md R48): under the invariant every operation that may stop has what it needs,
or raises a fault of the command's own. So the model's faults are not reached, nor is F_DEV_PROTOCOL (60_exceptions.md R253),
and SERVICE raises no fault at all.
-/

namespace Sys2Proof.Machine

/-! Outcomes that go on. -/

/-- The operation's stop, if it has one, is a fault of the spec other than F_DEV_PROTOCOL. -/
def Orderly {α : Type} (r : Except Stop α) : Prop := ∀ e, r = .error e → ∃ c, e = .raise c ∧ c ≠ .devProtocol

/-- The outcome is a next state, with the fault that `s` has. -/
def RaisesNone (s : State) (o : Outcome) : Prop := ∃ t, o = .next t ∧ t.fault = s.fault

/-- The outcome is a next state, and F_DEV_PROTOCOL is not raised on the way to it. -/
def Proceeds (s : State) (o : Outcome) : Prop := ∃ t, o = .next t ∧ (t.fault = 0x0B#8 → s.fault = 0x0B#8)

section
variable {s t u : State} {α β : Type} {r : Except Stop α}

theorem orderly_ok (a : α) : Orderly (.ok a) := nofun

theorem orderly_raise {c : FaultCode} (other : c ≠ .devProtocol) : Orderly (.error (.raise c) : Except Stop α) := by
  rintro _ ⟨⟩
  exact ⟨c, rfl, other⟩

theorem Orderly.map (h : Orderly r) (f : α → β) : Orderly (r.map f) := by
  cases r with
  | ok a => exact orderly_ok _
  | error e =>
    rintro _ ⟨⟩
    exact h e rfl

theorem RaisesNone.proceeds {o : Outcome} (h : RaisesNone s o) : Proceeds s o := by
  obtain ⟨t, next, same⟩ := h
  exact ⟨t, next, fun h => same ▸ h⟩

theorem RaisesNone.fault_eq {o : Outcome} (h : RaisesNone s o) (next : o = .next t) : t.fault = s.fault := by
  obtain ⟨u, next', same⟩ := h
  cases next.symm.trans next'
  exact same

/-- R253: the fault that a code stands for. -/
theorem eq_devProtocol_of_code {c : FaultCode} (code : c.code = 0x0B#8) : c = .devProtocol := by
  cases c with
  | devProtocol => rfl
  | _ => cases code

theorem proceeds_raise {c : FaultCode} (other : c ≠ .devProtocol) : Proceeds s (.next (raiseFault c u)) :=
  ⟨_, rfl, fun code => absurd (eq_devProtocol_of_code code) other⟩

theorem Proceeds.onOk {k : α → Outcome} (orderly : Orderly r) (ok : ∀ a, r = .ok a → Proceeds s (k a)) :
    Proceeds s (onOk r u k) := by
  cases r with
  | ok a => exact ok a rfl
  | error e =>
    obtain ⟨c, rfl, other⟩ := orderly e rfl
    exact proceeds_raise other

/-- R170: no row of the admission table raises F_DEV_PROTOCOL. -/
theorem uartAdmit_ne_devProtocol {k : AdmitKind} {lc : Lifecycle} {c : FaultCode} (h : uartAdmit k lc = some c) :
    c ≠ .devProtocol := by
  rintro rfl
  cases lc <;> cases k <;> cases h

theorem Proceeds.admitted {k : AdmitKind} {body : Outcome} (allowed : uartAdmit k s.lc = none → Proceeds s body) :
    Proceeds s (admitted k s body) := by
  obtain ⟨hk, e⟩ | ⟨c, hk, e⟩ := admitted_cases k s body <;> rw [e]
  · exact allowed hk
  · exact proceeds_raise (uartAdmit_ne_devProtocol hk)

theorem Proceeds.admittedUse {body : Outcome} (ready : s.lc = .ready → Proceeds s body) :
    Proceeds s (Machine.admitted .use s body) :=
  .admitted fun allowed => ready (uartAdmit_use_none.1 allowed)

end

/-! The operations that may stop (R122 to R124, R146, R147). -/

section
variable {cap : Nat} {b : Buffer}

theorem bufPush_orderly (live : b.Live cap) (v : Byte) : Orderly (bufPush cap b v) := by
  obtain ⟨-, e⟩ | ⟨-, -, e⟩ | ⟨-, out, -⟩ := bufPush_cases (cap := cap) (b := b) (v := v) rfl
  · rw [e]; exact orderly_raise nofun
  · rw [e]; exact orderly_ok _
  · exact absurd live.tail_lt out

theorem bufPop_orderly : Orderly (bufPop cap b) := by
  obtain ⟨-, e⟩ | ⟨-, e⟩ := bufPop_cases (cap := cap) (b := b) rfl <;> rw [e]
  · exact orderly_raise nofun
  · exact orderly_ok _

theorem bufFront_orderly (live : b.Live cap) : Orderly (bufFront cap b) := by
  obtain ⟨-, e⟩ | ⟨-, -, e⟩ | ⟨-, out, -⟩ := bufFront_cases (cap := cap) (b := b) rfl
  · rw [e]; exact orderly_raise nofun
  · rw [e]; exact orderly_ok _
  · exact absurd live.head_lt out

theorem sized_orderly {c : FaultCode} (other : c ≠ .devProtocol) (size value : Nat) : Orderly (sized size value c) := by
  unfold sized
  split
  · exact orderly_raise other
  · exact orderly_ok _

theorem conversion_orderly (i : Instr) (hz : Nat) (x : Word) : Orderly (conversion i hz x) :=
  sized_orderly (c := .convOverflow) nofun _ _

theorem measureCounts_orderly (unit hz : Nat) (d : Word) : Orderly (measureCounts unit hz d) :=
  sized_orderly (c := .measureOverflow) nofun _ _

/-- R178: whatever PutCore answers, it has written `tx` and the device's queue alone. -/
theorem putCore_wroteTx {v : Byte} {f : DevFlags} {s : State} {r : PutResult} (h : putCore v f s = .ok r) :
    ∃ b q, r.state s = s.wroteTx b q := by
  obtain ⟨-, -, u, hw, rfl⟩ | ⟨-, -, w, b, c, u, -, -, hw, rfl⟩ | ⟨-, -, c, -, rfl⟩ | ⟨-, -, rfl⟩ := putCore_cases h
  · obtain ⟨-, e⟩ | ⟨-, e⟩ := devWriteTx_cases hw <;> cases e
    exact ⟨s.tx, _, rfl⟩
  · obtain ⟨-, e⟩ | ⟨-, e⟩ := devWriteTx_cases hw <;> cases e
    exact ⟨c, _, rfl⟩
  · exact ⟨c, s.dev.txq, rfl⟩
  · exact ⟨s.tx, s.dev.txq, rfl⟩

end

/-! The commands, by the operation they share. -/

variable {s : State}

theorem bufCommand_proceeds {c : Bool} {b : BufId} {body : Nat → Buffer → Except Stop (Buffer × Word)}
    (orderly : c = true ∨ (s.buf b).init = true → Orderly (body (s.cap b) (s.buf b))) :
    Proceeds s (bufCommand c b body s) := by
  unfold bufCommand
  obtain ⟨-, e⟩ | ⟨-, -, -, e⟩ | ⟨-, init, e⟩ := bufAdmit_cases c b s <;> rw [e]
  · exact proceeds_raise nofun
  · exact proceeds_raise nofun
  · refine .onOk (orderly init) fun r _ => RaisesNone.proceeds ⟨_, rfl, ?_⟩
    rw [finish_fault, csExit_fault, setBuf_fault, csEnter_fault]

theorem ctrPure_proceeds {r : Except Stop Word} (orderly : Orderly r) : Proceeds s (ctrPure r s) :=
  .onOk orderly fun _ _ => ⟨_, rfl, id⟩

theorem waitCommand_proceeds (i j : Instr) (s : State) : Proceeds s (waitCommand i (conversion j) s) := by
  unfold waitCommand
  split
  · simp only [waitSample]
    split <;> exact ⟨_, rfl, id⟩
  · exact .onOk (conversion_orderly _ _ _) fun _ _ => ⟨_, rfl, id⟩

theorem setupCommand_proceeds (k : AdmitKind) (i : Instr) (lc : LineReq) (s : State) :
    Proceeds s (setupCommand k i lc s) := by
  unfold setupCommand
  split
  · exact ⟨_, rfl, id⟩
  · exact ⟨_, rfl, id⟩
  · refine .admitted fun _ => ?_
    split <;> exact ⟨_, rfl, id⟩

theorem execUartDestroy_proceeds (s : State) : Proceeds s (execUartDestroy s) := by
  unfold execUartDestroy
  split
  · exact ⟨_, rfl, id⟩
  · exact .admitted fun _ => ⟨_, rfl, id⟩

/-! Receiving: the count is compared before a byte is taken (R177, R180). -/

theorem Inv.rx_live_of_ready (h : Inv s) (ready : s.lc = .ready) : s.rx.Live s.inst.rxCap :=
  h.rx.live (h.init (.inl ready)).2

theorem execUartGet_proceeds (h : Inv s) : Proceeds s (execUartGet s) := by
  refine .admittedUse fun ready => ?_
  dsimp only
  split
  · exact ⟨_, rfl, id⟩
  · next notEmpty =>
    obtain ⟨v, c, taken⟩ := bufTake_live (h.rx_live_of_ready ready) notEmpty
    rw [csEnter_inst, csEnter_rx, taken]
    exact ⟨_, rfl, id⟩

theorem execUartRead_proceeds (n : Nat) (h : Inv s) : Proceeds s (execUartRead n s) := by
  refine .admittedUse fun ready => ?_
  dsimp only
  split
  · exact ⟨_, rfl, id⟩
  · next enough =>
    rw [csEnter_inst, csEnter_rx, bufTakeMany_live (h.rx_live_of_ready ready) (Nat.not_lt.1 enough)]
    exact ⟨_, rfl, id⟩

/-! Sending: the status read that let a byte go out still holds (R178, R181, R184). -/

theorem execUartPut_proceeds (v : Byte) (h : Inv s) : Proceeds s (execUartPut v s) := by
  unfold execUartPut
  split
  · next f hp =>
    obtain ⟨ready, trdy⟩ := h.atPoint hp
    obtain ⟨r, hr, -⟩ := putCore_appends v h.tx (h.init (.inl ready)).1 trdy
    obtain ⟨b, q, state⟩ := putCore_wroteTx hr
    rw [putDecide, hr, onOk_ok]
    cases r with
    | sent t => cases state; exact ⟨_, rfl, id⟩
    | queued t => cases state; exact ⟨_, rfl, id⟩
    | full => exact ⟨_, rfl, id⟩
  · exact ⟨_, rfl, id⟩
  · exact ⟨_, rfl, id⟩
  · exact .admittedUse fun _ => ⟨_, rfl, id⟩

theorem writeLoop_proceeds (n : Nat) (rest : List Byte) (s : State) : Proceeds s (writeLoop n rest s) := by
  cases rest <;> exact ⟨_, rfl, id⟩

theorem writeStart_proceeds (n : Nat) (s : State) : Proceeds s (writeStart n s) := by
  refine .admittedUse fun _ => ?_
  dsimp only
  split
  · exact ⟨_, rfl, id⟩
  · split
    · exact ⟨_, rfl, id⟩
    · exact writeLoop_proceeds n _ (csEnter s)

theorem execUartWrite_proceeds (n : Nat) (h : Inv s) : Proceeds s (execUartWrite n s) := by
  unfold execUartWrite
  split
  · next rest f hp =>
    obtain ⟨ready, trdy, more, -⟩ := h.atPoint hp
    obtain ⟨v, vs, rfl⟩ := List.exists_cons_of_ne_nil more
    obtain ⟨r, hr, -⟩ := putCore_appends v h.tx (h.init (.inl ready)).1 trdy
    obtain ⟨b, q, state⟩ := putCore_wroteTx hr
    rw [writeDecide, hr, onOk_ok]
    cases r with
    | sent t => cases state; exact ⟨_, rfl, id⟩
    | queued t => cases state; exact writeLoop_proceeds n vs (s.wroteTx b q)
    | full => exact writeLoop_proceeds n vs s
  · exact writeLoop_proceeds n _ s
  · exact ⟨_, rfl, id⟩
  · exact writeStart_proceeds n s

theorem flushStart_proceeds (s : State) : Proceeds s (flushStart s) := by
  refine .admittedUse fun _ => .onOk (r := convUs _ _) ?_ fun fpc _ => ?_
  · rw [convUs_eq]
    exact conversion_orderly _ _ _
  · rw [idleBoundOf_eq]
    exact .onOk (sized_orderly (c := .convOverflow) nofun _ _) fun _ _ => ⟨_, rfl, id⟩

theorem flushSend_proceeds (fpc bound base : Word) {f : DevFlags} (live : s.tx.Live s.inst.txCap) (trdy : TrdyHolds f s)
    (notEmpty : s.tx.count ≠ 0) : Proceeds s (flushSend fpc bound base f s) := by
  unfold flushSend
  split
  · next hf =>
    obtain ⟨v, c, taken⟩ := bufTake_live live notEmpty
    rw [taken, onOk_ok, devWriteTx_ready v trdy hf]
    exact ⟨_, rfl, id⟩
  · exact ⟨_, rfl, id⟩

theorem flushTest_proceeds (fpc bound base : Word) (f : DevFlags) (s : State) :
    Proceeds s (flushTest fpc bound base f s) := by
  simp only [flushTest]
  split
  · split <;> exact ⟨_, rfl, id⟩
  · split <;> exact ⟨_, rfl, id⟩

theorem execUartFlush_proceeds (h : Inv s) : Proceeds s (execUartFlush s) := by
  unfold execUartFlush
  cases hp : s.fg.point with
  | none => exact flushStart_proceeds s
  | some p =>
    cases p with
    | flushBase | flushIdle | flushEnd | flushDone => exact ⟨_, rfl, id⟩
    | flushDrain | flushBound | flushWait =>
      simp only [flushDrain, flushBound, flushWait]
      split <;> exact ⟨_, rfl, id⟩
    | flushGot fpc bound base f =>
      obtain ⟨ready, -, trdy, notEmpty⟩ := h.atPoint hp
      exact flushSend_proceeds fpc bound base (h.tx_live_of_ready ready) trdy notEmpty
    | flushTest fpc bound base f => exact flushTest_proceeds fpc bound base f s
    | _ => exact flushStart_proceeds s

/-! SERVICE, as the ISR and as the command (R215, R216, R218). -/

theorem SvcFrame.fault {s t : State} (f : SvcFrame s t) : t.fault = s.fault :=
  have ⟨_, _, _, fault, _⟩ := control_eq_iff.1 f.control
  fault

theorem serviceIsr_raisesNone {r : SvcResult} (kept : SvcKept s r) : RaisesNone s (serviceIsr r) := by
  cases r with
  | pause t p => exact ⟨_, rfl, kept.1.fault⟩
  | done t =>
    have frame : SvcFrame s t := kept
    exact ⟨_, rfl, frame.fault⟩
  | halt e t => exact kept.elim

theorem serviceCommand_raisesNone {r : SvcResult} (kept : SvcKept s r) : RaisesNone s (serviceCommand r) := by
  cases r with
  | pause t p => exact ⟨_, rfl, kept.1.fault⟩
  | done t =>
    have frame : SvcFrame s t := kept
    exact ⟨_, rfl, frame.fault⟩
  | halt e t => exact kept.elim

/-- R72, R252: the ISR is active only where no fault is recorded, and outside critical sections; its next step is one that
SERVICE can take. -/
theorem Inv.of_active {p : SvcPoint} (h : Inv s) (active : s.isr = .active p) :
    s.fault = 0#8 ∧ s.fg.inSection = false ∧ SvcOk p s ∧ s.tx.init = true ∧ s.rx.init = true := by
  have isr := h.isr
  simp only [IsrOk, active] at isr
  obtain ⟨at_, outside, registered, -⟩ := isr
  have h0 : s.fault = 0#8 := by
    by_contra hf
    cases active.symm.trans (h.halted hf).2
  exact ⟨h0, (h.section_ h0).symm.trans outside, at_, h.init (.inr registered)⟩

/-- R215: a turn of the active ISR is one step of SERVICE. -/
theorem isrStep_active {p : SvcPoint} (h0 : s.fault = 0#8) (active : s.isr = .active p) :
    isrStep s = serviceIsr (serviceStep p s) := by
  simp only [isrStep, h0, active, ne_eq, not_true_eq_false, if_false]

theorem isrStep_raisesNone (h : Inv s) : RaisesNone s (isrStep s) := by
  cases active : s.isr with
  | inactive =>
    simp only [isrStep, active]
    split
    · exact ⟨_, rfl, rfl⟩
    · split <;> exact ⟨_, rfl, rfl⟩
  | active p =>
    obtain ⟨h0, -, at_, live⟩ := h.of_active active
    rw [isrStep_active h0 active]
    exact serviceIsr_raisesNone (serviceStep_kept h.data live at_)

/-- R216: a later step of the command. -/
theorem exec_service_point {p : SvcPoint} (hp : s.fg.point = some (.svc p)) :
    exec .uartService s = serviceCommand (serviceStep p s) := by
  simp only [exec, execUartService, hp]

/-- R216: the command's first step, in the section it opens. -/
theorem exec_service_start (start : AtStart s) (ready : s.lc = .ready) :
    exec .uartService s = serviceCommand (serviceStep .h0 (csEnter s)) := by
  have start : s.fg.point = none := start
  simp only [exec, execUartService, start, admitted_ready ready]

theorem exec_service_point_raisesNone {p : SvcPoint} (h : Inv s) (hp : s.fg.point = some (.svc p)) :
    RaisesNone s (exec .uartService s) := by
  obtain ⟨ready, at_⟩ := h.atPoint hp
  rw [exec_service_point hp]
  exact serviceCommand_raisesNone (serviceStep_kept h.data (h.init (.inl ready)) at_)

theorem exec_service_start_raisesNone (start : AtStart s) (ready : s.lc = .ready) :
    RaisesNone s (exec .uartService s) := by
  rw [exec_service_start start ready]
  exact ⟨_, rfl, rfl⟩

theorem execUartService_proceeds (h : Inv s) : Proceeds s (execUartService s) := by
  have start : Proceeds s (admitted .use s (serviceCommand (serviceStep .h0 (csEnter s)))) :=
    .admittedUse fun _ => ⟨_, rfl, id⟩
  cases hp : s.fg.point with
  | none =>
    simp only [execUartService, hp]
    exact start
  | some p =>
    cases p with
    | svc p => exact (exec_service_point_raisesNone h hp).proceeds
    | _ =>
      simp only [execUartService, hp]
      exact start

/-! The turns. -/

theorem exec_proceeds (i : Instr) (h : Inv s) : Proceeds s (exec i s) := by
  have live (b : BufId) : (s.buf b).init = true → (s.buf b).Live (s.cap b) := (h.data.buf b).live
  cases i with
  | bufPush b v =>
    unfold exec
    exact bufCommand_proceeds fun init => (bufPush_orderly (live b (init.resolve_left nofun)) v).map _
  | bufPop =>
    unfold exec
    exact bufCommand_proceeds fun _ => bufPop_orderly.map _
  | bufFront b =>
    unfold exec
    exact bufCommand_proceeds fun init => (bufFront_orderly (live b (init.resolve_left nofun))).map _
  | bufClear | bufEmpty | bufFull | bufSize | bufAvail | bufMaxsize =>
    unfold exec
    exact bufCommand_proceeds fun _ => orderly_ok _
  | ctrNow | ctrTimeout => exact ⟨_, rfl, id⟩
  | ctrNs2cnt | ctrUs2cnt | ctrMs2cnt =>
    rw [exec_conversion (by simp)]
    exact ctrPure_proceeds (conversion_orderly _ _ _)
  | ctrDiff => exact ctrPure_proceeds (orderly_ok _)
  | ctrMeasns | ctrMeasus | ctrMeasms => exact ctrPure_proceeds (measureCounts_orderly _ _ _)
  | ctrWaitns | ctrWaitus | ctrWaitms =>
    rw [exec_wait (by simp)]
    exact waitCommand_proceeds _ _ s
  | uartSetup | uartCreate => exact setupCommand_proceeds _ _ _ s
  | uartGet => exact execUartGet_proceeds h
  | uartPut v => exact execUartPut_proceeds v h
  | uartRead n => exact execUartRead_proceeds n h
  | uartWrite n => exact execUartWrite_proceeds n h
  | uartClear | uartFrameperiod | uartOverrun | uartFraming | uartParity => exact .admittedUse fun _ => ⟨_, rfl, id⟩
  | uartFlush => exact execUartFlush_proceeds h
  | uartDestroy => exact execUartDestroy_proceeds s
  | uartService => exact execUartService_proceeds h

theorem fgStep_proceeds (h : Inv s) : Proceeds s (fgStep s) := by
  unfold fgStep
  split
  · exact ⟨_, rfl, id⟩
  · split
    · exact ⟨_, rfl, id⟩
    · split
      · exact proceeds_raise nofun
      · exact exec_proceeds _ h
    · exact exec_proceeds _ h

theorem Quiet.proceeds {t : State} (q : Quiet s t) : Proceeds s (.next t) :=
  have ⟨_, _, _, fault, _⟩ := control_eq_iff.1 q.control
  RaisesNone.proceeds ⟨t, rfl, fault⟩

/-- R48, R70: every turn goes on, but for the HOST's where it may not present a command. -/
theorem takeTurn_proceeds (e : Event) (h : Inv s) :
    Proceeds s (takeTurn e s) ∨
    (takeTurn e s = .refused .hostProtocol ∧ (∃ c a b d, e = .present c a b d) ∧ (s.port.busy = true ∨ s.fault ≠ 0#8)) := by
  cases e with
  | present cmd opa opb din =>
    simp only [takeTurn, hostStep]
    split
    · next illegal => exact .inr ⟨rfl, ⟨_, _, _, _, rfl⟩, by simpa using illegal⟩
    · exact .inl ⟨_, rfl, id⟩
  | fg => exact .inl (fgStep_proceeds h)
  | isr => exact .inl (isrStep_raisesNone h).proceeds
  | rxArrive v p f => exact .inl (rxArrive_quiet v p f s).proceeds
  | txLoad => exact .inl (txLoad_quiet s).proceeds
  | txDone => exact .inl (txDone_quiet s).proceeds
  | tick => exact .inl (ctrTick_quiet s).proceeds

/-- R70: from a state that meets the invariant, a step is the next agent's turn, in a state that meets it too. -/
theorem Inv.step_eq (h : Inv s) : step s = takeTurn (nextTurn s).1 (nextTurn s).2 := if_pos h.inst

theorem nextTurn_inv (h : Inv s) : Inv (nextTurn s).2 := (Kept.quiet (a := False) ⟨h, False.elim⟩ (nextTurn_quiet s)).inv

/-! The statements. -/

/-- Settles O17: each agent's turn goes on, but for the HOST's where the port is busy or a fault is recorded. -/
theorem stepNeverStops : Obligations.StepNeverStops := by
  intro s h
  have turn := takeTurn_proceeds (nextTurn s).1 (nextTurn_inv h)
  rw [← h.step_eq] at turn
  obtain ⟨t, next, -⟩ | ⟨refused, present, illegal⟩ := turn
  · exact .inl ⟨t, next⟩
  · rw [nextTurn_state] at illegal
    exact .inr ⟨refused, present, illegal⟩

/-- Settles O18: an operation on the device is made only where its status was read ready, and `rx` and `tx` are initialized
where SERVICE runs. -/
theorem serviceNeverFaults : Obligations.ServiceNeverFaults := by
  refine ⟨fun s t h next code => ?_, fun s t h isr next => ?_, fun s t p h running next => ?_,
    fun s t h ready start next => ?_⟩
  · have turn := takeTurn_proceeds (nextTurn s).1 (nextTurn_inv h)
    rw [← h.step_eq, next, nextTurn_state] at turn
    obtain ⟨u, e, keeps⟩ | ⟨e, -⟩ := turn <;> cases e
    exact keeps code
  · rw [h.step_eq, isr] at next
    have same := (isrStep_raisesNone (nextTurn_inv h)).fault_eq next
    rwa [nextTurn_state] at same
  · exact (exec_service_point_raisesNone h (by rw [running]; rfl)).fault_eq next
  · exact (exec_service_start_raisesNone start ready).fault_eq next

end Sys2Proof.Machine
end

section
/-!
PROOF. SERVICE, step by step (43_handler.md R211 to R214), what its steps may write, and the two agents that run them: the ISR
(R215, 60_exceptions.md R261, R262) and the command UART.SERVICE (R216).
-/

namespace Sys2Proof.Machine

/-! The steps of SERVICE. -/

section
variable {f : DevFlags} {k : Nat} {v : Byte} {s t : State}

theorem anyError_iff : f.anyError = true ↔ f.pe = true ∨ f.fe = true ∨ f.roe = true := by
  simp [DevFlags.anyError, or_assoc]

/-- R237: both methods clear the latches; RESET_RX_FIFO drops the queue as well. -/
theorem devClearErr_eq (s : State) :
    devClearErr s =
      { s with
        dev :=
          { s.dev with
            rxq := if s.inst.errClear = .resetRxFifo then [] else s.dev.rxq
            pe := false
            fe := false
            roe := false } } := by
  unfold devClearErr
  cases s.inst.errClear <;> rfl

/-- R212: errors in the snapshot are latched, and the device's are cleared. -/
theorem serviceStep_h1_errors (errors : f.pe = true ∨ f.fe = true ∨ f.roe = true) :
    serviceStep (.h1 f) s = .pause (devClearErr { s with sticky := s.sticky.latch f }) (.h2 f) :=
  if_pos (anyError_iff.2 errors)

/-- R212: without one the step runs on to H2. -/
theorem serviceStep_h1_clean (pe : f.pe = false) (fe : f.fe = false) (roe : f.roe = false) :
    serviceStep (.h1 f) s = serviceDrain f s :=
  if_neg (by simp [DevFlags.anyError, pe, fe, roe])

/-- R213: a snapshot without receive-ready runs on to H3. -/
theorem serviceDrain_notReady (notReady : f.rrdy = false) : serviceDrain f s = serviceRefill f s :=
  if_neg (by simp [notReady])

/-- R213: within the bound of the drain, the status is read again. -/
theorem serviceLoop_more (more : k < s.inst.hwRxDepth) :
    serviceLoop f k s = .pause s (if s.dev.rxq = [] then .h3 f else .h2read f k) := by
  rw [serviceLoop, if_pos more, devStatus_rrdy]
  cases s.dev.rxq <;> rfl

/-- R213: at the bound the step runs on to H3. -/
theorem serviceLoop_bound (bound : s.inst.hwRxDepth ≤ k) : serviceLoop f k s = serviceRefill f s :=
  if_neg (Nat.not_lt.2 bound)

/-- R234: the oldest byte of the hardware queue is taken in hand. -/
theorem serviceStep_h2read {q : List Byte} (queue : s.dev.rxq = v :: q) :
    serviceStep (.h2read f k) s = .pause { s with dev := { s.dev with rxq := q } } (.h2push f k v) := by
  simp only [serviceStep, devReadRx, queue]

theorem serviceDeposit_full (full : s.rx.count = s.inst.rxCap) :
    serviceDeposit v s = .ok { s with sticky := ⟨s.sticky.pe, s.sticky.fe, true⟩ } :=
  if_pos full

theorem serviceDeposit_push {b : Buffer} (room : s.rx.count ≠ s.inst.rxCap) (pushed : bufPush s.inst.rxCap s.rx v = .ok b) :
    serviceDeposit v s = .ok { s with rx := b } := by
  rw [serviceDeposit, if_neg room, pushed]
  rfl

/-- R213: after the deposit the step runs on to the head of the drain loop. -/
theorem serviceStep_h2push (deposited : serviceDeposit v s = .ok t) :
    serviceStep (.h2push f k v) s = serviceLoop f (k + 1) t := by
  simp only [serviceStep, deposited]

end

/-- Settles O52: a lemma for each point, on each branch of its step. -/
theorem serviceProtocol : Obligations.ServiceProtocol := by
  intro f k v s
  refine ⟨rfl, fun errors => ?_, serviceStep_h1_clean, serviceDrain_notReady, fun ready pos => ?_,
    fun w q => serviceStep_h2read, fun t kept => ?_, serviceRefill_idle, serviceRefill_empty,
    fun ready trdy notEmpty head => serviceRefill_send ready notEmpty head (trdy ready).ne, rfl⟩
  · rw [serviceStep_h1_errors errors, devClearErr_eq]
    rfl
  · exact (if_pos ready).trans (serviceLoop_more pos)
  · have deposited : serviceDeposit v s = .ok t ∧ t.inst = s.inst ∧ t.dev = s.dev := by
      obtain ⟨full, rfl⟩ | ⟨room, b, pushed, rfl⟩ := kept
      · exact ⟨serviceDeposit_full full, rfl, rfl⟩
      · exact ⟨serviceDeposit_push room pushed, rfl, rfl⟩
    obtain ⟨deposited, inst, dev⟩ := deposited
    rw [serviceStep_h2push deposited, ← inst, ← dev]
    exact ⟨serviceLoop_more, serviceLoop_bound⟩

/-! The command UART.SERVICE (R216). -/

section
variable {p q : SvcPoint} {s t : State}

theorem exec_service_pause (running : s.fg = .running .uartService (.svc p)) (pause : serviceStep p s = .pause t q) :
    exec .uartService s = .next { t with fg := .running .uartService (.svc q) } := by
  rw [exec_service_point (by rw [running]; rfl), pause]
  rfl

theorem exec_service_done (running : s.fg = .running .uartService (.svc p)) (done : serviceStep p s = .done t) :
    exec .uartService s = .next (t.sectionClosed.answered 0x00#8 0#32 []) := by
  rw [exec_service_point (by rw [running]; rfl), done, ← csExit_eq]
  rfl

end

/-- Settles O53: the command's outcome follows the handler's; the points from which a device that is not ready to send lets
SERVICE end are H3 and those that run on to it. -/
theorem serviceCommandRunsTheHandler : Obligations.ServiceCommandRunsTheHandler := by
  intro s
  refine ⟨fun start ready => ?_, fun p t q => exec_service_pause, fun p t => exec_service_done,
    fun last => exec_service_done last rfl, fun f p point running notReady => exec_service_done running ?_⟩
  · rw [exec_service_start start ready, ← csEnter_eq]
    rfl
  · have idle : serviceRefill f s = .done s := serviceRefill_idle notReady
    obtain rfl | ⟨rfl, rrdy⟩ | ⟨rfl, rrdy, pe, fe, roe⟩ := point
    · exact idle
    · exact (serviceDrain_notReady rrdy).trans idle
    · exact (serviceStep_h1_clean pe fe roe).trans ((serviceDrain_notReady rrdy).trans idle)

/-! What SERVICE may write, and the turns of the ISR (R72, R215). -/

/-- `t` is `s` but for the buffers, `sticky`, `ier`, and the device's queues, latches and enables. -/
def SvcWrites (s t : State) : Prop :=
  t =
    { s with
      tx := t.tx
      rx := t.rx
      sticky := t.sticky
      ier := t.ier
      dev :=
        { s.dev with
          rxq := t.dev.rxq
          txq := t.dev.txq
          pe := t.dev.pe
          fe := t.dev.fe
          roe := t.dev.roe
          ctrl := t.dev.ctrl } }

theorem serviceRefill_writes (f : DevFlags) (s : State) : SvcWrites s (serviceRefill f s).state := by
  unfold serviceRefill
  split
  · split
    · rfl
    · split
      · rfl
      · split
        · rfl
        · next hw =>
          obtain ⟨-, e⟩ | ⟨-, e⟩ := devWriteTx_cases hw <;> cases e
          rfl
  · rfl

theorem serviceLoop_writes (f : DevFlags) (k : Nat) (s : State) : SvcWrites s (serviceLoop f k s).state := by
  by_cases more : k < s.inst.hwRxDepth
  · rw [serviceLoop_more more]
    rfl
  · rw [serviceLoop_bound (Nat.not_lt.1 more)]
    exact serviceRefill_writes f s

theorem serviceDrain_writes (f : DevFlags) (s : State) : SvcWrites s (serviceDrain f s).state := by
  unfold serviceDrain
  split
  · exact serviceLoop_writes f 0 s
  · exact serviceRefill_writes f s

theorem serviceStep_writes (p : SvcPoint) (s : State) : SvcWrites s (serviceStep p s).state := by
  cases p with
  | h0 | h4 => rfl
  | h1 f =>
    simp only [serviceStep]
    split
    · rfl
    · exact serviceDrain_writes f s
  | h2 f => exact serviceDrain_writes f s
  | h2read f k =>
    obtain ⟨-, e⟩ | ⟨v, q, -, e⟩ := devReadRx_cases (s := s) rfl <;> simp only [serviceStep, e] <;> rfl
  | h2push f k v =>
    simp only [serviceStep]
    split
    · rfl
    · next t hd =>
      rw [serviceDeposit_frame hd]
      exact serviceLoop_writes f (k + 1) { s with rx := t.rx, sticky := t.sticky }
  | h3 f => exact serviceRefill_writes f s

/-- R215: a turn of the active ISR writes what its step of SERVICE writes, and `isr`. -/
theorem isrStep_active_writes {p : SvcPoint} {s t : State} (h : Inv s) (active : s.isr = .active p)
    (next : isrStep s = .next t) : ∃ u q, SvcWrites s u ∧ t = { u with isr := q } := by
  obtain ⟨h0, -, at_, live⟩ := h.of_active active
  have kept := serviceStep_kept h.data live at_
  have writes := serviceStep_writes p s
  rw [isrStep_active h0 active] at next
  cases hr : serviceStep p s with
  | pause u q =>
    rw [hr] at next writes
    cases next
    exact ⟨u, _, writes, rfl⟩
  | done u =>
    rw [hr] at next writes
    cases next
    exact ⟨u, _, writes, rfl⟩
  | halt e u =>
    rw [hr] at kept
    exact kept.elim

/-- Settles O10: FG's turn tests `isr` first; the ISR's is a step of SERVICE, which writes no state of FG's. -/
theorem isrTurnsLeaveForegroundAlone : Obligations.IsrTurnsLeaveForegroundAlone := by
  refine ⟨fun s rest wf active sched => ?_, fun s p rest wf h0 active sched => ?_, fun s t rest h active sched next => ?_⟩
  · exact (step_of_sched wf sched).trans (if_pos (.inr active))
  · have turn : step s = serviceIsr (serviceStep p { s with sched := rest }) :=
      (step_of_sched wf sched).trans (isrStep_active h0 active)
    exact ⟨fun t q pause => by rw [turn, pause]; rfl, fun t done => by rw [turn, done]; rfl⟩
  · have turn : nextTurn s = (.isr, { s with sched := rest }) := by rw [nextTurn, sched]
    have inv := nextTurn_inv h
    rw [h.step_eq, turn] at next
    rw [turn] at inv
    cases at_ : s.isr with
    | inactive => exact absurd at_ active
    | active p =>
      obtain ⟨u, q, writes, rfl⟩ := isrStep_active_writes inv at_ next
      rw [writes]
      simp only [and_self]

end Sys2Proof.Machine
end

section
/-!
PROOF. SERVICE is bounded (43_handler.md R217): each step leaves fewer steps to its end, and UART.SERVICE run alone takes them.
-/

namespace Sys2Proof.Machine

/-! The steps left (log entry 8). -/

/-- The most steps SERVICE takes from a point to its end: two for each byte the drain may still take, one for the refill and one
for the end. -/
def SvcPoint.stepsLeft (depth : Nat) : SvcPoint → Nat
  | .h0 => 2 * depth + 4
  | .h1 _ => 2 * depth + 3
  | .h2 _ => 2 * depth + 2
  | .h2read _ k => 2 * (depth - (k + 1)) + 3
  | .h2push _ k _ => 2 * (depth - (k + 1)) + 2
  | .h3 _ => 2
  | .h4 => 1

section
variable {f : DevFlags} {s t : State} {q : SvcPoint}

theorem serviceRefill_stepsLeft (pause : serviceRefill f s = .pause t q) (depth : Nat) : q.stepsLeft depth = 1 := by
  obtain ⟨rfl, -, -⟩ := serviceRefill_pause pause
  rfl

/-- R213: a byte more is taken only within the bound of the drain. -/
theorem serviceLoop_stepsLeft {k : Nat} (pause : serviceLoop f k s = .pause t q) :
    q.stepsLeft s.inst.hwRxDepth < 2 * (s.inst.hwRxDepth - k) + 2 := by
  by_cases more : k < s.inst.hwRxDepth
  · rw [serviceLoop_more more] at pause
    cases pause
    split <;> simp only [SvcPoint.stepsLeft] <;> omega
  · rw [serviceLoop_bound (Nat.not_lt.1 more)] at pause
    rw [serviceRefill_stepsLeft pause]
    omega

theorem serviceDrain_stepsLeft (pause : serviceDrain f s = .pause t q) :
    q.stepsLeft s.inst.hwRxDepth < 2 * s.inst.hwRxDepth + 2 := by
  unfold serviceDrain at pause
  split at pause
  · exact serviceLoop_stepsLeft pause
  · rw [serviceRefill_stepsLeft pause]
    omega

theorem SvcPoint.stepsLeft_pos (p : SvcPoint) (depth : Nat) : 0 < p.stepsLeft depth := by
  cases p <;> simp [SvcPoint.stepsLeft]

/-- R217: a step that pauses leaves fewer steps. -/
theorem serviceStep_stepsLeft {p : SvcPoint} (pause : serviceStep p s = .pause t q) :
    q.stepsLeft s.inst.hwRxDepth < p.stepsLeft s.inst.hwRxDepth := by
  cases p with
  | h0 => cases pause; exact Nat.lt_succ_self _
  | h1 f =>
    simp only [serviceStep] at pause
    split at pause
    · cases pause; exact Nat.lt_succ_self _
    · exact (serviceDrain_stepsLeft pause).trans (Nat.lt_succ_self _)
  | h2 f => exact serviceDrain_stepsLeft pause
  | h2read f k =>
    simp only [serviceStep] at pause
    split at pause <;> cases pause
    exact Nat.lt_succ_self _
  | h2push f k v =>
    simp only [serviceStep] at pause
    split at pause
    · cases pause
    · next deposited =>
      have inst := serviceDeposit_inst deposited
      exact inst ▸ serviceLoop_stepsLeft pause
  | h3 f =>
    rw [serviceRefill_stepsLeft pause]
    exact Nat.lt_succ_self 1
  | h4 => cases pause

end

/-! The command run alone. -/

/-- What a run of UART.SERVICE leaves alone until it closes its critical section. -/
def State.outsideService (s : State) := (s.inst, s.irqc, s.saved, s.fault, s.ctr)

theorem SvcFrame.outsideService {s t : State} (f : SvcFrame s t) : t.outsideService = s.outsideService := by
  obtain ⟨inst, irqc, -, fault, -, -, saved, -⟩ := control_eq_iff.1 f.control
  simp only [State.outsideService, inst, irqc, saved, fault, f.ctr]

/-- R216, R217: from the point `p`, FG running alone ends the command within the steps left, this one the first of them. -/
theorem serviceCommand_ends {n : Nat} {p : SvcPoint} {s : State} (data : DataOk s)
    (live : s.tx.init = true ∧ s.rx.init = true) (at_ : SvcOk p s) (left : p.stepsLeft s.inst.hwRxDepth ≤ n) :
    ∃ t k u, serviceCommand (serviceStep p s) = .next t ∧ k < n ∧
      execSteps k .uartService t = .next (finish .ok 0#32 (csExit u)) ∧ u.outsideService = s.outsideService := by
  induction n generalizing p s with
  | zero => exact absurd (p.stepsLeft_pos s.inst.hwRxDepth) (Nat.not_lt.2 left)
  | succ n ih =>
    have kept := serviceStep_kept data live at_
    cases hr : serviceStep p s with
    | pause t q =>
      rw [hr] at kept
      obtain ⟨frame, at_⟩ := kept
      have inst : t.inst = s.inst := (control_eq_iff.1 frame.control).1
      have left : q.stepsLeft t.inst.hwRxDepth ≤ n := by
        have fewer := serviceStep_stepsLeft hr
        rw [inst]
        omega
      obtain ⟨t', k, u, first, le, run, outside⟩ :=
        ih (s := { t with fg := .running .uartService (.svc q) }) { frame.data with } (frame.live live) at_ left
      rw [← exec_service_point rfl] at first
      exact ⟨_, k + 1, u, rfl, Nat.succ_lt_succ le, by rw [execSteps, first]; exact run,
        outside.trans frame.outsideService⟩
    | done t =>
      rw [hr] at kept
      exact ⟨_, 0, t, rfl, Nat.succ_pos n, rfl, SvcFrame.outsideService kept⟩
    | halt e t =>
      rw [hr] at kept
      exact kept.elim

/-- Settles O54: from H0, in the critical section that the first step opens. -/
theorem serviceIsBounded : Obligations.ServiceIsBounded := by
  intro s h h0 presented ready
  have start : AtStart s := by rw [AtStart, presented]; rfl
  obtain ⟨t, k, u, first, lt, run, outside⟩ :=
    serviceCommand_ends (p := .h0) (s := csEnter s) h.data.csEnter (h.init (.inl ready)) trivial le_rfl
  rw [← exec_service_start start ready] at first
  simp only [State.outsideService, Prod.mk.injEq] at outside
  obtain ⟨inst, irqc, saved, fault, ctr⟩ := outside
  refine ⟨k + 1, finish .ok 0#32 (csExit u), lt, by rw [execSteps, first]; exact run, rfl, rfl, rfl, fault.trans h0, rfl,
    ?_, ctr⟩
  calc (csExit u).irqc = (csExit (csEnter s)).irqc := by simp only [csExit_irqc, inst, irqc, saved]
    _ = s.irqc := csExit_csEnter_irqc s

end Sys2Proof.Machine
end

section
/-!
PROOF. Received bytes keep the order of arrival (20_memory.md R75, 43_handler.md R213, R219, 44_device.md R237, R240): what each
agent's turn does to the bytes in `rx`, in SERVICE's hand and in the hardware queue.
-/

namespace Sys2Proof.Machine

/-! SERVICE's deposit (R213). -/

theorem serviceDeposit_appends {s : State} (v : Byte) (live : s.rx.Live s.inst.rxCap) (room : s.rx.count ≠ s.inst.rxCap) :
    ∃ b, serviceDeposit v s = .ok { s with rx := b } ∧ b.Live s.inst.rxCap ∧
      b.contents s.inst.rxCap = s.rx.contents s.inst.rxCap ++ [v] := by
  obtain ⟨b, pushed, contents, -, live', -⟩ := bufPush_accepts live room v
  exact ⟨b, serviceDeposit_push room pushed, live', contents⟩

/-! The byte in hand. -/

/-- R213: the byte SERVICE holds at a point. -/
def SvcPoint.inHand : SvcPoint → List Byte
  | .h2push _ _ v => [v]
  | _ => []

/-- The byte that FG holds, running SERVICE as the command. -/
def FgState.inHand : FgState → List Byte
  | .running _ (.svc p) => p.inHand
  | _ => []

/-- The byte that the ISR holds. -/
def IsrState.inHand : IsrState → List Byte
  | .active p => p.inHand
  | .inactive => []

section
variable {s : State}

theorem rxInHand_of_isr (none : s.isr.inHand = []) : s.rxInHand = s.fg.inHand := by
  unfold State.rxInHand
  split
  · next active =>
    rw [active] at none
    cases none
  · next running _ =>
    rw [running]
    rfl
  · next noPush =>
    unfold FgState.inHand
    split
    · next i p running =>
      cases p with
      | h2push f k v => exact absurd running (noPush i f k v)
      | _ => rfl
    · rfl

/-- R72: while the ISR is active FG is outside every critical section. -/
theorem rxInHand_of_outside (out : s.fg.inSection = false) : s.rxInHand = s.isr.inHand := by
  unfold State.rxInHand
  split
  · next active =>
    rw [active]
    rfl
  · next running _ =>
    rw [running] at out
    cases out
  · next noPush _ =>
    unfold IsrState.inHand
    split
    · next p active =>
      cases p with
      | h2push f k v => exact absurd active (noPush f k v)
      | _ => rfl
    · rfl

theorem rxInHand_of_inactive (inactive : s.isr = .inactive) : s.rxInHand = s.fg.inHand :=
  rxInHand_of_isr (by rw [inactive]; rfl)

end

/-- R38: a step of SERVICE is inside a critical section. -/
theorem FgState.inHand_of_outside {g : FgState} (out : g.inSection = false) : g.inHand = [] := by
  cases g with
  | idle | presented => rfl
  | running i p =>
    cases p with
    | svc p => cases out
    | _ => rfl

/-! A step of SERVICE (R211 to R214). -/

/-- Where a step of SERVICE pauses, the byte it holds there. -/
def SvcResult.inHand : SvcResult → List Byte
  | .pause _ p => p.inHand
  | .done _ | .halt _ _ => []

/-- The bytes received, where a step of SERVICE leaves them. -/
def SvcResult.rxStream (r : SvcResult) : List Byte :=
  r.state.rx.contents r.state.inst.rxCap ++ r.inHand ++ r.state.dev.rxq

theorem rxStream_pause (s : State) (p : SvcPoint) :
    (SvcResult.pause s p).rxStream = s.rx.contents s.inst.rxCap ++ p.inHand ++ s.dev.rxq := rfl

/-- The step takes no byte from the device, puts none into `rx`, and holds none. -/
structure SvcResult.NoRx (s : State) (r : SvcResult) : Prop where
  inst : r.state.inst = s.inst
  rx : r.state.rx = s.rx
  rxq : r.state.dev.rxq = s.dev.rxq
  sticky : r.state.sticky = s.sticky
  inHand : r.inHand = []

theorem SvcResult.NoRx.rxStream {s : State} {r : SvcResult} (h : r.NoRx s) :
    r.rxStream = s.rx.contents s.inst.rxCap ++ s.dev.rxq := by
  rw [SvcResult.rxStream, h.inst, h.rx, h.rxq, h.inHand, List.append_nil]

theorem SvcResult.NoRx.keeps {s : State} {r : SvcResult} (h : r.NoRx s) {p : SvcPoint} (none : p.inHand = []) :
    r.rxStream = s.rx.contents s.inst.rxCap ++ p.inHand ++ s.dev.rxq := by
  rw [none, List.append_nil]
  exact h.rxStream

theorem serviceRefill_noRx (f : DevFlags) (s : State) : (serviceRefill f s).NoRx s := by
  unfold serviceRefill
  split
  · split
    · exact ⟨rfl, rfl, rfl, rfl, rfl⟩
    · split
      · exact ⟨rfl, rfl, rfl, rfl, rfl⟩
      · split
        · exact ⟨rfl, rfl, rfl, rfl, rfl⟩
        · next hw =>
          obtain ⟨-, e⟩ | ⟨-, e⟩ := devWriteTx_cases hw <;> cases e
          exact ⟨rfl, rfl, rfl, rfl, rfl⟩
  · exact ⟨rfl, rfl, rfl, rfl, rfl⟩

theorem serviceLoop_noRx (f : DevFlags) (k : Nat) (s : State) : (serviceLoop f k s).NoRx s := by
  by_cases more : k < s.inst.hwRxDepth
  · rw [serviceLoop_more more]
    refine ⟨rfl, rfl, rfl, rfl, ?_⟩
    split <;> rfl
  · rw [serviceLoop_bound (Nat.not_lt.1 more)]
    exact serviceRefill_noRx f s

theorem serviceDrain_noRx (f : DevFlags) (s : State) : (serviceDrain f s).NoRx s := by
  unfold serviceDrain
  split
  · exact serviceLoop_noRx f 0 s
  · exact serviceRefill_noRx f s

section
variable {s : State}

/-- R213: with `rx` full the byte in hand is dropped, and the overrun bit set. -/
theorem serviceStep_drops {f : DevFlags} {k : Nat} {v : Byte} (full : s.rx.count = s.inst.rxCap) :
    (serviceStep (.h2push f k v) s).rxStream = s.rx.contents s.inst.rxCap ++ s.dev.rxq ∧
      (serviceStep (.h2push f k v) s).state.sticky.oe = true := by
  have noRx := serviceLoop_noRx f (k + 1) { s with sticky := ⟨s.sticky.pe, s.sticky.fe, true⟩ }
  rw [serviceStep_h2push (serviceDeposit_full full)]
  exact ⟨noRx.rxStream, by rw [noRx.sticky]⟩

/-- R212, R237: the method RESET_RX_FIFO drops the hardware queue. -/
theorem serviceStep_resets {f : DevFlags} (errors : f.pe = true ∨ f.fe = true ∨ f.roe = true)
    (method : s.inst.errClear = .resetRxFifo) :
    (serviceStep (.h1 f) s).rxStream = s.rx.contents s.inst.rxCap := by
  rw [serviceStep_h1_errors errors, devClearErr_eq, if_pos method, rxStream_pause]
  simp [SvcPoint.inHand]

/-- R212, R213: every other step only moves the oldest byte of one part of the sequence to the end of the part before it. -/
theorem serviceStep_keepsRx {p : SvcPoint} (live : s.rx.Live s.inst.rxCap) (at_ : SvcOk p s)
    (noDrop : ∀ f k v, p = .h2push f k v → s.rx.count ≠ s.inst.rxCap)
    (noReset : ∀ f, p = .h1 f → (f.pe = true ∨ f.fe = true ∨ f.roe = true) → s.inst.errClear ≠ .resetRxFifo) :
    (serviceStep p s).rxStream = s.rx.contents s.inst.rxCap ++ p.inHand ++ s.dev.rxq := by
  cases p with
  | h0 | h4 => rfl
  | h1 f =>
    by_cases errors : f.pe = true ∨ f.fe = true ∨ f.roe = true
    · rw [serviceStep_h1_errors errors, devClearErr_eq, if_neg (noReset f rfl errors)]
      rfl
    · rw [serviceStep, if_neg (mt anyError_iff.1 errors)]
      exact (serviceDrain_noRx f s).keeps rfl
  | h2 f => exact (serviceDrain_noRx f s).keeps rfl
  | h2read f k =>
    obtain ⟨-, -, ready⟩ := at_
    obtain ⟨v, q, queue⟩ := List.exists_cons_of_ne_nil ready
    rw [serviceStep_h2read queue, queue, rxStream_pause]
    simp [SvcPoint.inHand]
  | h2push f k v =>
    obtain ⟨b, deposited, -, contents⟩ := serviceDeposit_appends v live (noDrop f k v rfl)
    rw [serviceStep_h2push deposited, (serviceLoop_noRx f (k + 1) _).rxStream]
    exact congrArg (· ++ s.dev.rxq) contents
  | h3 f => exact (serviceRefill_noRx f s).keeps rfl

end

/-! The turn that runs a step of SERVICE, the ISR's or FG's (R215, R216). -/

/-- The state has the bytes received and the sticky bits as the step of SERVICE leaves them. -/
structure Receives (r : SvcResult) (t : State) : Prop where
  rxStream : t.rxStream = r.rxStream
  sticky : t.sticky = r.state.sticky

theorem receives_of_inHand {r : SvcResult} {t : State} (inHand : t.rxInHand = r.inHand) (inst : t.inst = r.state.inst)
    (rx : t.rx = r.state.rx) (rxq : t.dev.rxq = r.state.dev.rxq) (sticky : t.sticky = r.state.sticky) : Receives r t :=
  ⟨by rw [State.rxStream, SvcResult.rxStream, inHand, inst, rx, rxq], sticky⟩

/-- R252: a fault ends SERVICE, with no byte in hand. -/
theorem halt_receives (e : Stop) (s : State) : AllNext (Receives (.halt e s)) (e.outcome s) :=
  .stopped e fun _ => receives_of_inHand (rxInHand_of_inactive rfl) rfl rfl rfl rfl

theorem serviceIsr_receives {r : SvcResult} (out : r.state.fg.inSection = false) :
    AllNext (Receives r) (serviceIsr r) := by
  cases r with
  | pause s p =>
    have inHand := rxInHand_of_outside (s := { s with isr := .active p }) out
    exact allNext_next.2 (receives_of_inHand inHand rfl rfl rfl rfl)
  | done s =>
    have inHand := rxInHand_of_inactive (s := leaveService s) rfl
    exact allNext_next.2 (receives_of_inHand (inHand.trans (FgState.inHand_of_outside out)) rfl rfl rfl rfl)
  | halt e s => exact halt_receives e s

theorem serviceCommand_receives {r : SvcResult} (inactive : r.state.isr = .inactive) :
    AllNext (Receives r) (serviceCommand r) := by
  cases r with
  | pause s p =>
    have inHand := rxInHand_of_inactive (s := { s with fg := .running .uartService (.svc p) }) inactive
    exact allNext_next.2 (receives_of_inHand inHand rfl rfl rfl rfl)
  | done s =>
    have inHand := rxInHand_of_inactive (s := finish .ok 0#32 (csExit s)) inactive
    exact allNext_next.2 (receives_of_inHand inHand rfl rfl rfl rfl)
  | halt e s => exact halt_receives e s

section
variable {s : State} {p : SvcPoint}

/-- The agent whose turn is `e` runs SERVICE, at the point `p`. -/
def RunsService (e : Event) (p : SvcPoint) (s : State) : Prop :=
  (e = .isr ∧ s.isr = .active p) ∨ (e = .fg ∧ s.isr = .inactive ∧ ∃ i, s.fg = .running i (.svc p))

theorem servicePoint_eq_some (h : s.servicePoint = some p) : RunsService (nextTurn s).1 p s := by
  unfold State.servicePoint at h
  split at h <;> cases h
  · next isr active => exact .inl ⟨isr, active⟩
  · next fg inactive running => exact .inr ⟨fg, inactive, _, running⟩

theorem servicePoint_of_runs (h : RunsService (nextTurn s).1 p s) : s.servicePoint = some p := by
  obtain ⟨isr, active⟩ | ⟨fg, inactive, i, running⟩ := h
  · rw [State.servicePoint, isr, active]
  · rw [State.servicePoint, fg, inactive, running]

theorem Inv.fits {i : Instr} {p : FgPoint} (h : Inv s) (running : s.fg = .running i p) : p.fits i = true := by
  have fg := h.fg
  simp only [FgOk, running] at fg
  exact fg.1

/-- R215, R216: the turn leaves the bytes received as its step of SERVICE does, and before it the byte in hand is the
point's. -/
theorem takeTurn_service {e : Event} (h : Inv s) (runs : RunsService e p s) :
    AllNext (Receives (serviceStep p s)) (takeTurn e s) ∧ s.rxInHand = p.inHand ∧ SvcOk p s ∧ s.rx.Live s.inst.rxCap := by
  have writes := serviceStep_writes p s
  obtain ⟨rfl, active⟩ | ⟨rfl, inactive, i, running⟩ := runs
  · obtain ⟨h0, out, at_, -, init⟩ := h.of_active active
    have turn : takeTurn .isr s = serviceIsr (serviceStep p s) := isrStep_active h0 active
    rw [turn]
    refine ⟨serviceIsr_receives (by rw [writes]; exact out), ?_, at_, h.rx.live init⟩
    rw [rxInHand_of_outside out, active]
    rfl
  · have fits := h.fits running
    have point : s.fg.point = some (.svc p) := by rw [running]; rfl
    obtain ⟨ready, at_⟩ := h.atPoint point
    have h0 : s.fault = 0#8 := by
      by_contra hf
      cases running.symm.trans (h.halted hf).1
    have own : i = .uartService := by
      cases i with
      | uartService => rfl
      | _ => cases fits
    subst own
    have turn : takeTurn .fg s = serviceCommand (serviceStep p s) :=
      (fgStep_running h0 inactive running).trans (exec_service_point point)
    rw [turn]
    refine ⟨serviceCommand_receives (by rw [writes]; exact inactive), ?_, at_, h.rx_live_of_ready ready⟩
    rw [rxInHand_of_inactive inactive, running]
    rfl

end

/-! The commands that leave the bytes received alone, by the operation they share. -/

/-- `rx`, SERVICE's hand and the hardware queue are as in `s`, where FG holds no byte. -/
structure RxAlone (s t : State) : Prop where
  same : (t.inst, t.rx, t.dev.rxq) = (s.inst, s.rx, s.dev.rxq)
  isr : t.isr = .inactive
  fg : t.fg.inHand = []

/-- Every next state of the outcome has the bytes received of `s`, none of them in hand. -/
abbrev KeepsRx (s : State) (o : Outcome) : Prop := AllNext (RxAlone s) o

theorem RxAlone.rxStream {s t : State} (h : RxAlone s t) (none : s.rxInHand = []) : t.rxStream = s.rxStream := by
  obtain ⟨same, isr, fg⟩ := h
  simp only [Prod.mk.injEq] at same
  obtain ⟨inst, rx, rxq⟩ := same
  rw [State.rxStream, State.rxStream, rxInHand_of_inactive isr, fg, none, inst, rx, rxq]

/-- The points of FG at which a command changes the bytes received: the clearing of `rx` by SetupCore (R174), and SERVICE. -/
def FgPoint.movesRx : FgPoint → Bool
  | .setupCtrl _ | .svc _ => true
  | _ => false

theorem admitted_keepsRx {s : State} {k : AdmitKind} {body : Outcome} (hb : KeepsRx s body) :
    KeepsRx s (admitted k s body) :=
  .admitted (fun _ => ⟨rfl, rfl, rfl⟩) hb

/-- R181: the loop goes on from a state with the bytes received of `s`. -/
theorem writeLoop_keepsRx {s t : State} (n : Nat) (rest : List Byte)
    (same : (t.inst, t.rx, t.dev.rxq) = (s.inst, s.rx, s.dev.rxq)) (inactive : t.isr = .inactive) :
    KeepsRx s (writeLoop n rest t) := by
  cases rest <;> exact allNext_next.2 ⟨same, inactive, rfl⟩

section
variable {s : State} (inactive : s.isr = .inactive)
include inactive

theorem bufCommand_keepsRx {c : Bool} {b : BufId} {body : Nat → Buffer → Except Stop (Buffer × Word)}
    (same : b = .rx → ∀ cap x y w, body cap x = .ok (y, w) → y = x) : KeepsRx s (bufCommand c b body s) := by
  unfold bufCommand
  split
  · exact allNext_next.2 ⟨rfl, rfl, rfl⟩
  · refine .onOk (fun _ => ⟨rfl, rfl, rfl⟩) fun r hr => allNext_next.2 ?_
    cases b with
    | tx => exact ⟨rfl, inactive, rfl⟩
    | rx =>
      have unchanged : r.1 = s.rx := same rfl _ _ _ _ hr
      rw [unchanged]
      exact ⟨rfl, inactive, rfl⟩

theorem ctrPure_keepsRx (r : Except Stop Word) : KeepsRx s (ctrPure r s) :=
  .onOk (fun _ => ⟨rfl, rfl, rfl⟩) fun _ _ => allNext_next.2 ⟨rfl, inactive, rfl⟩

theorem waitCommand_keepsRx (i : Instr) (conv : Nat → Word → Except Stop Word) : KeepsRx s (waitCommand i conv s) := by
  unfold waitCommand
  split
  · simp only [waitSample]
    split <;> exact allNext_next.2 ⟨rfl, inactive, rfl⟩
  · exact .onOk (fun _ => ⟨rfl, rfl, rfl⟩) fun _ _ => allNext_next.2 ⟨rfl, inactive, rfl⟩

theorem execUartDestroy_keepsRx : KeepsRx s (execUartDestroy s) := by
  unfold execUartDestroy
  split
  · exact allNext_next.2 ⟨rfl, inactive, rfl⟩
  · exact admitted_keepsRx (allNext_next.2 ⟨rfl, inactive, rfl⟩)

/-! PUT and WRITE, which write `tx` and the device's other queue (R178, R179, R181). -/

theorem execUartPut_keepsRx (v : Byte) : KeepsRx s (execUartPut v s) := by
  unfold execUartPut
  split
  · refine .onOk (fun _ => ⟨rfl, rfl, rfl⟩) fun r hr => ?_
    obtain ⟨b, q, state⟩ := putCore_wroteTx hr
    cases r with
    | sent t => cases state; exact allNext_next.2 ⟨rfl, inactive, rfl⟩
    | queued t => cases state; exact allNext_next.2 ⟨rfl, inactive, rfl⟩
    | full => exact allNext_next.2 ⟨rfl, inactive, rfl⟩
  · exact allNext_next.2 ⟨rfl, inactive, rfl⟩
  · exact allNext_next.2 ⟨rfl, inactive, rfl⟩
  · exact admitted_keepsRx (allNext_next.2 ⟨rfl, inactive, rfl⟩)

theorem writeStart_keepsRx (n : Nat) : KeepsRx s (writeStart n s) := by
  refine admitted_keepsRx ?_
  dsimp only
  split
  · exact allNext_next.2 ⟨rfl, inactive, rfl⟩
  · split
    · exact allNext_next.2 ⟨rfl, inactive, rfl⟩
    · exact writeLoop_keepsRx n _ rfl inactive

theorem writeDecide_keepsRx (n : Nat) (rest : List Byte) (f : DevFlags) : KeepsRx s (writeDecide n rest f s) := by
  cases rest with
  | nil => exact allNext_next.2 ⟨rfl, inactive, rfl⟩
  | cons v vs =>
    refine .onOk (fun _ => ⟨rfl, rfl, rfl⟩) fun r hr => ?_
    obtain ⟨b, q, state⟩ := putCore_wroteTx hr
    cases r with
    | sent t => cases state; exact allNext_next.2 ⟨rfl, inactive, rfl⟩
    | queued t => cases state; exact writeLoop_keepsRx (t := s.wroteTx b q) n vs rfl inactive
    | full => exact writeLoop_keepsRx n vs rfl inactive

theorem execUartWrite_keepsRx (n : Nat) : KeepsRx s (execUartWrite n s) := by
  unfold execUartWrite
  split
  · exact writeDecide_keepsRx inactive n _ _
  · exact writeLoop_keepsRx n _ rfl inactive
  · exact allNext_next.2 ⟨rfl, inactive, rfl⟩
  · exact writeStart_keepsRx inactive n

/-! FLUSH (R183 to R186). -/

theorem flushStart_keepsRx : KeepsRx s (flushStart s) :=
  admitted_keepsRx <| .onOk (fun _ => ⟨rfl, rfl, rfl⟩) fun _ _ => .onOk (fun _ => ⟨rfl, rfl, rfl⟩) fun _ _ =>
    allNext_next.2 ⟨rfl, inactive, rfl⟩

theorem flushSend_keepsRx (fpc bound base : Word) (f : DevFlags) : KeepsRx s (flushSend fpc bound base f s) := by
  unfold flushSend
  split
  · refine .onOk (fun _ => ⟨rfl, rfl, rfl⟩) fun r _ => .onOk (fun _ => ⟨rfl, rfl, rfl⟩) fun t hw => ?_
    obtain ⟨-, e⟩ | ⟨-, e⟩ := devWriteTx_cases hw <;> cases e
    exact allNext_next.2 ⟨rfl, inactive, rfl⟩
  · exact allNext_next.2 ⟨rfl, inactive, rfl⟩

theorem flushTest_keepsRx (fpc bound base : Word) (f : DevFlags) : KeepsRx s (flushTest fpc bound base f s) := by
  simp only [flushTest]
  split
  · split <;> exact allNext_next.2 ⟨rfl, inactive, rfl⟩
  · split <;> exact allNext_next.2 ⟨rfl, inactive, rfl⟩

theorem execUartFlush_keepsRx : KeepsRx s (execUartFlush s) := by
  unfold execUartFlush
  cases s.fg.point with
  | none => exact flushStart_keepsRx inactive
  | some p =>
    cases p with
    | flushBase | flushIdle | flushEnd | flushDone => exact allNext_next.2 ⟨rfl, inactive, rfl⟩
    | flushDrain | flushBound | flushWait =>
      simp only [flushDrain, flushBound, flushWait]
      split <;> exact allNext_next.2 ⟨rfl, inactive, rfl⟩
    | flushGot fpc bound base f => exact flushSend_keepsRx inactive fpc bound base f
    | flushTest fpc bound base f => exact flushTest_keepsRx inactive fpc bound base f
    | _ => exact flushStart_keepsRx inactive

/-! The commands that have a point of `FgPoint.movesRx`, at another one (R174, R216). -/

section
variable (quiet : ∀ p, s.fg.point = some p → p.movesRx = false)
include quiet

theorem setupCommand_keepsRx (k : AdmitKind) (i : Instr) (lc : LineReq) : KeepsRx s (setupCommand k i lc s) := by
  unfold setupCommand
  split
  · next hp => cases quiet _ hp
  · exact allNext_next.2 ⟨rfl, inactive, rfl⟩
  · refine admitted_keepsRx ?_
    split <;> exact allNext_next.2 ⟨rfl, inactive, rfl⟩

theorem execUartService_keepsRx : KeepsRx s (execUartService s) := by
  unfold execUartService
  split
  · next hp => cases quiet _ hp
  · exact admitted_keepsRx (allNext_next.2 ⟨rfl, inactive, rfl⟩)

/-- R213: a command that does not edit `rx`, at a point at which it does not change the bytes received. -/
theorem exec_keepsRx (i : Instr) (noEdit : editsRx i = false) : KeepsRx s (exec i s) := by
  unfold exec
  cases i with
  | bufClear b | bufPush b | bufPop b =>
    refine bufCommand_keepsRx inactive ?_
    rintro rfl
    cases noEdit
  | bufFront b =>
    refine bufCommand_keepsRx inactive fun _ cap x y w e => ?_
    cases hf : bufFront cap x <;> rw [hf] at e <;> cases e
    rfl
  | bufEmpty | bufFull | bufSize | bufAvail | bufMaxsize =>
    refine bufCommand_keepsRx inactive fun _ cap x y w e => ?_
    cases e
    rfl
  | ctrNow | ctrTimeout => exact allNext_next.2 ⟨rfl, inactive, rfl⟩
  | ctrNs2cnt | ctrUs2cnt | ctrMs2cnt | ctrDiff | ctrMeasns | ctrMeasus | ctrMeasms => exact ctrPure_keepsRx inactive _
  | ctrWaitns | ctrWaitus | ctrWaitms => exact waitCommand_keepsRx inactive _ _
  | uartSetup | uartCreate => exact setupCommand_keepsRx inactive quiet _ _ _
  | uartGet | uartRead | uartClear => cases noEdit
  | uartPut v => exact execUartPut_keepsRx inactive v
  | uartWrite n => exact execUartWrite_keepsRx inactive n
  | uartFlush => exact execUartFlush_keepsRx inactive
  | uartFrameperiod | uartOverrun | uartFraming | uartParity =>
    exact admitted_keepsRx (allNext_next.2 ⟨rfl, inactive, rfl⟩)
  | uartDestroy => exact execUartDestroy_keepsRx inactive
  | uartService => exact execUartService_keepsRx inactive quiet

end

end

/-! The turns that run no step of SERVICE. -/

/-- R36: the commands that edit `rx` end in one step. -/
theorem editsRx_of_fits {i : Instr} {p : FgPoint} (fits : p.fits i = true) : editsRx i = false := by
  cases i with
  | bufClear | bufPush | bufPop | uartGet | uartRead | uartClear => cases p <;> cases fits
  | _ => rfl

/-- What FG's turn must not run for the bytes received to stay: a command that edits `rx`, the clearing of `rx` by SetupCore, a
step of SERVICE. -/
structure State.RxQuiet (s : State) : Prop where
  noEdit : ∀ i, s.fg = .presented → fetchCommand s = .ok i → editsRx i = false
  noSetup : ∀ i cfg, s.fg ≠ .running i (.setupCtrl cfg)
  noService : s.isr = .inactive → ∀ i p, s.fg ≠ .running i (.svc p)

section
variable {s : State}

theorem fgStep_rxStream (h : Inv s) (quiet : s.RxQuiet) : AllNext (fun t => t.rxStream = s.rxStream) (fgStep s) := by
  unfold fgStep
  split
  · exact allNext_next.2 rfl
  · next free =>
    simp only [ne_eq, not_or, not_not] at free
    obtain ⟨-, inactive⟩ := free
    have keeps {o : Outcome} (none : s.fg.inHand = []) (ho : KeepsRx s o) :
        AllNext (fun t => t.rxStream = s.rxStream) o :=
      fun t next => (ho t next).rxStream ((rxInHand_of_inactive inactive).trans none)
    split
    · exact allNext_next.2 rfl
    · next presented =>
      refine keeps (by rw [presented]; rfl) ?_
      split
      · exact allNext_next.2 ⟨rfl, rfl, rfl⟩
      · next fetched =>
        exact exec_keepsRx inactive (by simp [presented]) _ (quiet.noEdit _ presented fetched)
    · next i p running =>
      have still : p.movesRx = false := by
        cases p with
        | setupCtrl cfg => exact absurd running (quiet.noSetup i cfg)
        | svc q => exact absurd running (quiet.noService inactive i q)
        | _ => rfl
      have none : s.fg.inHand = [] := by
        rw [running]
        cases p with
        | svc q => cases still
        | _ => rfl
      refine keeps none (exec_keepsRx inactive (fun q hq => ?_) i (editsRx_of_fits (h.fits running)))
      rw [running] at hq
      cases hq
      exact still

/-- R48: FG, idle before, holds no byte. -/
theorem hostStep_rxStream (h : Inv s) (cmd opa opb : Word) (din : List Byte) :
    AllNext (fun t => t.rxStream = s.rxStream) (hostStep cmd opa opb din s) := by
  unfold hostStep
  split
  · exact allNext_refused _
  · next legal =>
    have idle : s.fg = .idle := by
      by_contra busy
      simp [h.busy.2 busy] at legal
    have none : s.fg.inSection = false := by rw [idle]; rfl
    have before := rxInHand_of_outside none
    have after := rxInHand_of_outside (s := presented cmd opa opb din s) rfl
    refine allNext_next.2 ?_
    rw [State.rxStream, after, State.rxStream, before]
    rfl

/-- R240: an arrival goes behind the hardware queue, unless that is full. -/
theorem rxArrive_rxStream (v : Byte) (p f : Bool) (s : State) :
    (rxArrive v p f s).rxStream = s.rxStream ++ if s.dev.rxq.length = s.inst.hwRxDepth then [] else [v] := by
  unfold rxArrive
  split
  · exact (List.append_nil _).symm
  · exact (List.append_assoc _ _ _).symm

theorem txLoad_rxStream (s : State) : (txLoad s).rxStream = s.rxStream := by
  unfold txLoad
  split <;> rfl

theorem txDone_rxStream (s : State) : (txDone s).rxStream = s.rxStream := by
  unfold txDone
  split <;> rfl

theorem ctrTick_rxStream (s : State) : (ctrTick s).rxStream = s.rxStream := by
  unfold ctrTick
  split <;> rfl

/-- R258: the interrupt's delivery takes no byte in hand. -/
theorem isrStep_inactive_rxStream (inactive : s.isr = .inactive) :
    AllNext (fun t => t.rxStream = s.rxStream) (isrStep s) := by
  simp only [isrStep, inactive]
  split
  · exact allNext_next.2 rfl
  · refine allNext_next.2 ?_
    split
    · have before := rxInHand_of_inactive inactive
      have after := rxInHand_of_isr (s := enterService s) rfl
      rw [State.rxStream, after, State.rxStream, before]
      rfl
    · rfl

theorem takeTurn_rxStream {e : Event} (h : Inv s) (noArrival : ∀ v p f, e ≠ .rxArrive v p f)
    (noService : ∀ p, ¬ RunsService e p s)
    (quiet : e = .fg → (∀ i, s.fg = .presented → fetchCommand s = .ok i → editsRx i = false) ∧
      ∀ i cfg, s.fg ≠ .running i (.setupCtrl cfg)) :
    AllNext (fun t => t.rxStream = s.rxStream) (takeTurn e s) := by
  cases e with
  | present cmd opa opb din => exact hostStep_rxStream h cmd opa opb din
  | fg =>
    obtain ⟨noEdit, noSetup⟩ := quiet rfl
    exact fgStep_rxStream h
      ⟨noEdit, noSetup, fun inactive i p running => noService p (.inr ⟨rfl, inactive, i, running⟩)⟩
  | isr =>
    cases active : s.isr with
    | inactive => exact isrStep_inactive_rxStream active
    | active p => exact absurd (.inl ⟨rfl, active⟩) (noService p)
  | rxArrive v p f => exact absurd rfl (noArrival v p f)
  | txLoad => exact allNext_next.2 (txLoad_rxStream s)
  | txDone => exact allNext_next.2 (txDone_rxStream s)
  | tick => exact allNext_next.2 (ctrTick_rxStream s)

/-- R213, R219: the turn deposits a byte where `rx` is full. -/
theorem takeTurn_drops {e : Event} {t : State} {f : DevFlags} {k : Nat} {v : Byte} (h : Inv s)
    (runs : RunsService e (.h2push f k v) s) (full : s.rx.count = s.inst.rxCap) (next : takeTurn e s = .next t) :
    t.rxStream = s.rx.contents s.inst.rxCap ++ s.dev.rxq ∧ t.sticky.oe = true := by
  have receives := (takeTurn_service h runs).1 t next
  rw [receives.rxStream, receives.sticky]
  exact serviceStep_drops full

/-- R212, R237: the turn clears the device's errors by the method RESET_RX_FIFO. -/
theorem takeTurn_resets {e : Event} {t : State} {f : DevFlags} (h : Inv s) (runs : RunsService e (.h1 f) s)
    (errors : f.pe = true ∨ f.fe = true ∨ f.roe = true) (method : s.inst.errClear = .resetRxFifo)
    (next : takeTurn e s = .next t) : t.rxStream = s.rx.contents s.inst.rxCap := by
  have receives := (takeTurn_service h runs).1 t next
  rw [receives.rxStream]
  exact serviceStep_resets errors method

/-- R75: every other step of SERVICE. -/
theorem takeTurn_service_rxStream {e : Event} {t : State} {p : SvcPoint} (h : Inv s) (runs : RunsService e p s)
    (noDrop : ∀ f k v, p = .h2push f k v → s.rx.count ≠ s.inst.rxCap)
    (noReset : ∀ f, p = .h1 f → (f.pe = true ∨ f.fe = true ∨ f.roe = true) → s.inst.errClear ≠ .resetRxFifo)
    (next : takeTurn e s = .next t) : t.rxStream = s.rxStream := by
  obtain ⟨receives, inHand, at_, live⟩ := takeTurn_service h runs
  rw [(receives t next).rxStream, serviceStep_keepsRx live at_ noDrop noReset, ← inHand]
  rfl

end

/-- Settles O55: an arrival is appended; a step of SERVICE moves a byte along, drops it or resets the queue; no other turn that
the statement leaves changes the sequence. -/
theorem serviceKeepsArrivalOrder : Obligations.ServiceKeepsArrivalOrder := by
  refine ⟨fun s v live => ⟨fun room => ?_, serviceDeposit_full⟩, fun s t h next => ?_⟩
  · obtain ⟨b, deposited, live', contents⟩ := serviceDeposit_appends v live room
    exact ⟨b, deposited, live', by rw [contents, List.append_assoc]; rfl⟩
  · have inv := nextTurn_inv h
    have runs {p : SvcPoint} : RunsService (nextTurn s).1 p (nextTurn s).2 ↔ s.servicePoint = some p := by
      rw [nextTurn_state]
      exact ⟨servicePoint_of_runs, servicePoint_eq_some⟩
    rw [h.step_eq] at next
    rw [nextTurn_state] at next inv runs
    refine ⟨fun v p f arrival => ?_, fun ⟨⟨f, k, v, point⟩, full⟩ => ?_, fun ⟨f, point, errors, method⟩ => ?_,
      fun noArrival noDrop noReset quiet => ?_⟩
    · rw [arrival] at next
      cases next
      exact rxArrive_rxStream v p f _
    · exact (takeTurn_drops inv (runs.2 point) full next :)
    · exact (takeTurn_resets inv (runs.2 point) errors method next :)
    · cases point : s.servicePoint with
      | none => exact takeTurn_rxStream inv noArrival (fun p h => nomatch point.symm.trans (runs.1 h)) quiet t next
      | some p =>
        have keeps := takeTurn_service_rxStream inv (runs.2 point)
          (fun f k v e full => noDrop ⟨⟨f, k, v, e ▸ point⟩, full⟩)
          (fun f e errors method => noReset ⟨f, e ▸ point, errors, method⟩) next
        exact keeps

end Sys2Proof.Machine
end

section
/-!
PROOF. The device (44_device.md): the DEV agent's events (R240 to R242), the interrupt request level (R243), the status and
control words of DEV_MAP (R232), and the register accesses the device operations stand for (R233 to R239; 20_memory.md R61).
-/

namespace Sys2Proof.Machine

/-! The DEV agent. -/

/-- R240: with the hardware queue full, the byte is lost and `roe` set. -/
theorem rxArrive_full {s : State} (full : s.dev.rxq.length = s.inst.hwRxDepth) (v : Byte) (p f : Bool) :
    rxArrive v p f s = { s with dev := { s.dev with lineIn := s.dev.lineIn ++ [⟨v, p, f⟩], roe := true } } :=
  if_pos full

/-- R240: else the byte is queued and its error flags are latched. -/
theorem rxArrive_room {s : State} (room : s.dev.rxq.length ≠ s.inst.hwRxDepth) (v : Byte) (p f : Bool) :
    rxArrive v p f s =
      { s with
        dev :=
          { s.dev with
            lineIn := s.dev.lineIn ++ [⟨v, p, f⟩]
            rxq := s.dev.rxq ++ [v]
            pe := s.dev.pe || p
            fe := s.dev.fe || f } } :=
  if_neg room

/-- R241: an empty shifter takes the oldest byte of `txq`. -/
theorem txLoad_enabled {s : State} {v : Byte} {q : List Byte} (empty : s.dev.shifter = none) (queue : s.dev.txq = v :: q) :
    txLoad s = { s with dev := { s.dev with shifter := some v, txq := q } } := by
  simp only [txLoad, empty, queue]

/-- R241: TxLoad is not enabled with a byte in the shifter or none in `txq`. -/
theorem txLoad_disabled {s : State} (disabled : s.dev.shifter ≠ none ∨ s.dev.txq = []) : txLoad s = s := by
  unfold txLoad
  split
  · next empty queue => simp [empty, queue] at disabled
  · rfl

/-- R242: the byte in the shifter goes out on the line. -/
theorem txDone_enabled {s : State} {v : Byte} (loaded : s.dev.shifter = some v) :
    txDone s = { s with dev := { s.dev with lineOut := s.dev.lineOut ++ [v], shifter := none } } := by
  simp only [txDone, loaded]

/-- R242: TxDone is not enabled with the shifter empty. -/
theorem txDone_disabled {s : State} (empty : s.dev.shifter = none) : txDone s = s := by
  simp only [txDone, empty]

/-- Settles O11: each turn is its event on the state without the turn. -/
theorem deviceEvents : Obligations.DeviceEvents := by
  intro s rest wf
  refine ⟨fun v p f sched => ?_, fun sched => ?_, fun sched => ?_⟩
  · have turn : step s = .next (rxArrive v p f { s with sched := rest }) := step_of_sched wf sched
    exact ⟨fun full => turn.trans (congrArg _ (rxArrive_full (s := { s with sched := rest }) full v p f)),
      fun room => turn.trans (congrArg _ (rxArrive_room (s := { s with sched := rest }) room v p f))⟩
  · have turn : step s = .next (txLoad { s with sched := rest }) := step_of_sched wf sched
    exact ⟨fun v q empty queue => turn.trans (congrArg _ (txLoad_enabled empty queue)),
      fun disabled => turn.trans (congrArg _ (txLoad_disabled disabled))⟩
  · have turn : step s = .next (txDone { s with sched := rest }) := step_of_sched wf sched
    exact ⟨fun v loaded => turn.trans (congrArg _ (txDone_enabled loaded)),
      fun empty => turn.trans (congrArg _ (txDone_disabled empty))⟩

/-- Settles O13: the three terms of R243 are flags of R231, each with its enable. -/
theorem interruptRequestLevel : Obligations.InterruptRequestLevel := by
  intro s
  have rrdy : (statusFlags s.inst.hwTxDepth s.dev).rrdy = true ↔ s.dev.rxq ≠ [] := by simp [statusFlags]
  have trdy : (statusFlags s.inst.hwTxDepth s.dev).trdy = true ↔ s.dev.txq.length < s.inst.hwTxDepth := by
    simp [statusFlags]
  have error : (statusFlags s.inst.hwTxDepth s.dev).anyError = true ↔
      s.dev.pe = true ∨ s.dev.fe = true ∨ s.dev.roe = true := anyError_iff
  simp only [irqLevel, Bool.or_eq_true, Bool.and_eq_true, rrdy, trdy, error, or_assoc]

/-! The bits of a register word. -/

theorem getLsbD_one_shiftLeft {i : Nat} (lt : i < 32) (j : Nat) : (1#32 <<< i).getLsbD j = decide (j = i) := by
  rw [← BitVec.twoPow_eq, BitVec.getLsbD_twoPow]
  by_cases h : j = i <;> simp [h, lt, Ne.symm]

/-- A bit put at a position of the word is read back there, and no other bit changes. -/
theorem getLsbD_putBit {i : Nat} (lt : i < 32) (w : Word) (b : Bool) (j : Nat) :
    (putBit w i b).getLsbD j = if j = i then b else w.getLsbD j := by
  have bit := getLsbD_one_shiftLeft lt j
  unfold putBit
  by_cases h : j = i
  · subst h
    cases b <;> simp [lt]
  · cases b <;> simp +contextual [bit, h, BitVec.lt_of_getLsbD (x := w) (i := j)]

section
variable {l : List (Nat × Bool)} {w : Word}

/-- A position at which no bit is put keeps its bit. -/
theorem getLsbD_putBits_other (lt : ∀ i ∈ l.map Prod.fst, i < 32) {j : Nat} (other : j ∉ l.map Prod.fst) :
    (putBits l w).getLsbD j = w.getLsbD j := by
  induction l with
  | nil => rfl
  | cons p l ih =>
    obtain ⟨lt_p, lt⟩ := List.forall_mem_cons.1 lt
    obtain ⟨ne, other⟩ := not_or.1 (mt List.mem_cons.2 other)
    rw [putBits, getLsbD_putBit lt_p, if_neg ne, ih lt other]

/-- Bits put at distinct positions are all read back. -/
theorem getLsbD_putBits_mem (lt : ∀ i ∈ l.map Prod.fst, i < 32) (nodup : (l.map Prod.fst).Nodup) :
    ∀ p ∈ l, (putBits l w).getLsbD p.1 = p.2 := by
  induction l with
  | nil => exact List.forall_mem_nil _
  | cons q l ih =>
    obtain ⟨lt_q, lt⟩ := List.forall_mem_cons.1 lt
    obtain ⟨fresh, nodup⟩ := List.nodup_cons.1 nodup
    refine List.forall_mem_cons.2 ⟨by rw [putBits, getLsbD_putBit lt_q, if_pos rfl], fun p mem => ?_⟩
    have ne : p.1 ≠ q.1 := fun e => fresh (e ▸ List.mem_map_of_mem mem)
    rw [putBits, getLsbD_putBit lt_q, if_neg ne, ih lt nodup p mem]

/-- Bits that are all 0 leave the word 0. -/
theorem putBits_zero (zero : ∀ p ∈ l, p.2 = false) : putBits l 0#32 = 0#32 := by
  induction l with
  | nil => rfl
  | cons p l ih =>
    obtain ⟨zero_p, zero⟩ := List.forall_mem_cons.1 zero
    simp [putBits, putBit, zero_p, ih zero]

/-- A value held at each of at least one position is what the conjunction of the positions reads. -/
theorem all_getLsbD_eq {is : List Nat} {b : Bool} (nonempty : is ≠ []) (bits : ∀ i ∈ is, w.getLsbD i = b) :
    (is.all fun i => w.getLsbD i) = b := by
  obtain ⟨i, mem⟩ := List.exists_mem_of_ne_nil is nonempty
  cases b with
  | false => exact List.all_eq_false.2 ⟨i, mem, by simp [bits i mem]⟩
  | true => exact List.all_eq_true.2 bits

end

/-! The status and control words under a legal register map. -/

/-- R232, U53: what the check of a DEV_MAP says of its offsets, its status positions and its control positions. -/
structure LegalMap (m : DevMap) (e : ErrClear) : Prop where
  offsets : [m.offRx, m.offTx, m.offStatus, m.offCtrl, m.offDiv].Nodup
  status_lt : ∀ i ∈ [m.rrdy, m.trdy, m.txEmpty, m.tmt, m.pe, m.fe, m.roe], i < 32
  status : [m.rrdy, m.trdy, m.txEmpty, m.tmt, m.pe, m.fe, m.roe].Nodup
  ctrl_lt : ∀ i ∈ m.rxe ++ m.txe ++ m.erre ++ m.rstRx.toList, i < 32
  ctrl : (m.rxe ++ m.txe ++ m.erre ++ m.rstRx.toList).Nodup
  rxe : m.rxe ≠ []
  txe : m.txe ≠ []
  erre : m.erre ≠ []
  rstRx : e = .resetRxFifo → ∃ i, m.rstRx = some i

theorem legalMap_of_wf {m : DevMap} {e : ErrClear} (wf : m.wf e = true) : LegalMap m e := by
  simp only [DevMap.wf, Bool.and_eq_true, Bool.or_eq_true, decide_eq_true_eq, List.all_eq_true, Bool.not_eq_true',
    List.isEmpty_eq_false_iff, Option.isSome_iff_exists] at wf
  obtain ⟨⟨⟨⟨⟨⟨⟨⟨⟨-, offsets⟩, status_lt⟩, status⟩, ctrl_lt⟩, ctrl⟩, rxe⟩, txe⟩, erre⟩, method⟩ := wf
  exact ⟨offsets, status_lt, status, ctrl_lt, ctrl, rxe, txe, erre, fun reset => method.resolve_right (by simp [reset])⟩

/-- R236: the bits `word(m)` carries, as `statusBits` gives those of a status word. -/
def ctrlBits (m : DevMap) (en : Enables) : List (Nat × Bool) :=
  m.rxe.map (·, en.rxe) ++ m.txe.map (·, en.txe) ++ m.erre.map (·, en.erre)

theorem ctrlWord_eq (m : DevMap) (en : Enables) : ctrlWord m en = putBits (ctrlBits m en) 0#32 := rfl

theorem ctrlBits_positions (m : DevMap) (en : Enables) : (ctrlBits m en).map Prod.fst = m.rxe ++ m.txe ++ m.erre := by
  simp [ctrlBits, Function.comp_def]

/-- R239: the word that enables nothing is 0. -/
theorem ctrlWord_zero (m : DevMap) : ctrlWord m .zero = 0#32 :=
  putBits_zero (by simp [Enables.zero])

section
variable {m : DevMap} {e : ErrClear} {en : Enables} {w : Word}

/-- R233: a status word is decoded into the flags it was made of. -/
theorem decodeStatus_statusWord (legal : LegalMap m e) (f : DevFlags) (junk : Word) :
    decodeStatus m (statusWord m f junk) = f := by
  have bits : ∀ p ∈ statusBits m f, (statusWord m f junk).getLsbD p.1 = p.2 :=
    getLsbD_putBits_mem legal.status_lt legal.status
  simp only [statusBits, List.forall_mem_cons] at bits
  obtain ⟨rrdy, trdy, txEmpty, tmt, pe, fe, roe, -⟩ := bits
  simp only [decodeStatus, rrdy, trdy, txEmpty, tmt, pe, fe, roe]

/-- R232: a word that shows the bits of an enable mask is decoded into it. -/
theorem decodeCtrl_of_bits (legal : LegalMap m e) (bits : ∀ p ∈ ctrlBits m en, w.getLsbD p.1 = p.2) :
    decodeCtrl m w = en := by
  simp only [ctrlBits, List.forall_mem_append, List.forall_mem_map] at bits
  obtain ⟨⟨rxe, txe⟩, erre⟩ := bits
  simp only [decodeCtrl, all_getLsbD_eq legal.rxe rxe, all_getLsbD_eq legal.txe txe, all_getLsbD_eq legal.erre erre]

theorem LegalMap.ctrlBits_lt (legal : LegalMap m e) (en : Enables) : ∀ i ∈ (ctrlBits m en).map Prod.fst, i < 32 := by
  rw [ctrlBits_positions]
  exact (List.forall_mem_append.1 legal.ctrl_lt).1

theorem LegalMap.ctrlBits_nodup (legal : LegalMap m e) (en : Enables) : ((ctrlBits m en).map Prod.fst).Nodup := by
  rw [ctrlBits_positions]
  exact legal.ctrl.of_append_left

/-- R237: RST_RX is none of the positions of the enables. -/
theorem LegalMap.rstRx_fresh (legal : LegalMap m e) (en : Enables) {i : Nat} (reset : m.rstRx = some i) :
    i < 32 ∧ i ∉ (ctrlBits m en).map Prod.fst := by
  have mem : i ∈ m.rstRx.toList := by simp [reset]
  rw [ctrlBits_positions]
  exact ⟨legal.ctrl_lt i (List.mem_append_right _ mem), fun h => List.disjoint_of_nodup_append legal.ctrl h mem⟩

/-- R236: `word(m)` shows each enable at its positions. -/
theorem getLsbD_ctrlWord (legal : LegalMap m e) (en : Enables) : ∀ p ∈ ctrlBits m en, (ctrlWord m en).getLsbD p.1 = p.2 :=
  getLsbD_putBits_mem (legal.ctrlBits_lt en) (legal.ctrlBits_nodup en)

theorem decodeCtrl_ctrlWord (legal : LegalMap m e) (en : Enables) : decodeCtrl m (ctrlWord m en) = en :=
  decodeCtrl_of_bits legal (getLsbD_ctrlWord legal en)

/-- R236, R237: `word(m)` is 0 at RST_RX. -/
theorem asksReset_ctrlWord (legal : LegalMap m e) (en : Enables) : asksReset m (ctrlWord m en) = false := by
  cases reset : m.rstRx with
  | none => simp only [asksReset, reset]
  | some i =>
    obtain ⟨-, fresh⟩ := legal.rstRx_fresh en reset
    simp only [asksReset, reset, ctrlWord_eq, getLsbD_putBits_other (legal.ctrlBits_lt en) fresh, BitVec.getLsbD_zero]

/-- R237: RST_RX beside an enable mask leaves the mask as it is. -/
theorem decodeCtrl_ctrlWord_reset (legal : LegalMap m e) (en : Enables) :
    decodeCtrl m (ctrlWord m en ||| resetBit m) = en := by
  cases reset : m.rstRx with
  | none => simp only [resetBit, reset, BitVec.or_zero, decodeCtrl_ctrlWord legal]
  | some i =>
    obtain ⟨lt, fresh⟩ := legal.rstRx_fresh en reset
    refine decodeCtrl_of_bits legal fun p mem => ?_
    have ne : p.1 ≠ i := fun h => fresh (h ▸ List.mem_map_of_mem mem)
    simp only [resetBit, reset, BitVec.getLsbD_or, getLsbD_ctrlWord legal en p mem, getLsbD_one_shiftLeft lt, ne,
      decide_false, Bool.or_false]

/-- R237: a word with RST_RX set asks for the reset, where the method needs the bit. -/
theorem asksReset_or_resetBit (legal : LegalMap m e) (method : e = .resetRxFifo) (w : Word) :
    asksReset m (w ||| resetBit m) = true := by
  obtain ⟨i, reset⟩ := legal.rstRx method
  obtain ⟨lt, -⟩ := legal.rstRx_fresh .zero reset
  simp only [asksReset, resetBit, reset, BitVec.getLsbD_or, getLsbD_one_shiftLeft lt, decide_true, Bool.or_true]

end

/-- Settles O59: distinct positions are read back as they were written, and RST_RX is none of the enables'. -/
theorem registerWordsRoundTrip : Obligations.RegisterWordsRoundTrip := fun _ _ wf =>
  have legal := legalMap_of_wf wf
  ⟨decodeStatus_statusWord legal, fun en => ⟨decodeCtrl_ctrlWord legal en, asksReset_ctrlWord legal en⟩⟩

/-! The register accesses. -/

/-- R61: two registers share an address only where they share an offset. -/
theorem regAddr_inj {s : State} {a b : Word} : regAddr s a = regAddr s b ↔ a = b := BitVec.add_right_inj ..

theorem legalMap_of_admitted {p : Params} (wf : p.wf = true) : LegalMap p.devMap p.errClear := by
  simp only [Params.wf, Bool.and_eq_true] at wf
  exact legalMap_of_wf wf.2

/-- R65, R232: the offsets an access is told apart by. -/
theorem LegalMap.offsets_ne {m : DevMap} {e : ErrClear} (legal : LegalMap m e) :
    m.offRx ≠ m.offStatus ∧ m.offCtrl ≠ m.offTx ∧ (m.offDiv ≠ m.offTx ∧ m.offDiv ≠ m.offCtrl) ∧
      m.offStatus ≠ m.offTx ∧ m.offStatus ≠ m.offCtrl ∧ m.offStatus ≠ m.offDiv := by
  have offsets := legal.offsets
  simp only [List.nodup_cons, List.mem_cons, not_or] at offsets
  obtain ⟨⟨rxTx, rxStatus, -⟩, ⟨txStatus, txCtrl, txDiv, -⟩, ⟨statusCtrl, statusDiv, -⟩, ⟨ctrlDiv, -⟩, -⟩ := offsets
  exact ⟨rxStatus, Ne.symm txCtrl, ⟨Ne.symm txDiv, Ne.symm ctrlDiv⟩, Ne.symm txStatus, statusCtrl, statusDiv⟩

/-- R233: a read of the status register. -/
theorem memRead_status (s : State) :
    memRead (regAddr s s.inst.devMap.offStatus) s =
      .ok (statusWord s.inst.devMap (devStatus s) (Config.freeBits s.draws), { s with draws := s.draws + 1 }) :=
  if_pos rfl

/-- R235: a write of the TX register. -/
theorem memWrite_tx (v : Byte) (s : State) :
    memWrite (regAddr s s.inst.devMap.offTx) (v.setWidth 32) s = devWriteTx v s := by
  have low : (v.setWidth 32).extractLsb' 0 8 = v := by
    rw [← BitVec.setWidth_eq_extractLsb' (by decide), BitVec.setWidth_setWidth_of_le v (by decide), BitVec.setWidth_eq]
  rw [memWrite, if_pos rfl, low]

section
variable {s : State} {e : ErrClear} (legal : LegalMap s.inst.devMap e)
include legal

/-- R234: a read of the RX register, DevReadRx with the byte in the low bits of the word. -/
theorem memRead_rx :
    memRead (regAddr s s.inst.devMap.offRx) s =
      (devReadRx s).map fun r => (r.1.setWidth 32 ||| Config.freeBits s.draws <<< 8, { r.2 with draws := r.2.draws + 1 }) := by
  obtain ⟨rx, -⟩ := legal.offsets_ne
  rw [memRead, if_neg (mt regAddr_inj.1 rx), if_pos rfl]
  cases devReadRx s <;> rfl

/-- R236: a write of the control register that asks for no FIFO reset. -/
theorem memWrite_ctrl {w : Word} (keep : asksReset s.inst.devMap w = false) :
    memWrite (regAddr s s.inst.devMap.offCtrl) w s = .ok (devWriteCtrl (decodeCtrl s.inst.devMap w) s) := by
  obtain ⟨-, ctrl, -⟩ := legal.offsets_ne
  simp [memWrite, regAddr_inj, ctrl, keep]

/-- R237: one that asks for it clears the queue and the latches as well. -/
theorem memWrite_ctrl_reset {w : Word} (reset : asksReset s.inst.devMap w = true) :
    memWrite (regAddr s s.inst.devMap.offCtrl) w s =
      .ok
        { s with
          dev :=
            { s.dev with ctrl := decodeCtrl s.inst.devMap w, rxq := [], pe := false, fe := false, roe := false } } := by
  obtain ⟨-, ctrl, -⟩ := legal.offsets_ne
  simp [memWrite, regAddr_inj, ctrl, reset, devWriteCtrl]

/-- R236: a write of `word(m)`. -/
theorem memWrite_ctrlWord (en : Enables) :
    memWrite (regAddr s s.inst.devMap.offCtrl) (ctrlWord s.inst.devMap en) s = .ok (devWriteCtrl en s) := by
  rw [memWrite_ctrl legal (asksReset_ctrlWord legal en), decodeCtrl_ctrlWord legal]

/-- R238: a write of the divisor register. -/
theorem memWrite_div (d : Word) : memWrite (regAddr s s.inst.devMap.offDiv) d s = .ok (writeDivisor d s) := by
  obtain ⟨-, -, ⟨tx, ctrl⟩, -⟩ := legal.offsets_ne
  simp [memWrite, regAddr_inj, tx, ctrl]

/-- R237, R239: a write of 0 to the status register. -/
theorem memWrite_status :
    memWrite (regAddr s s.inst.devMap.offStatus) 0#32 s =
      .ok { s with dev := { s.dev with pe := false, fe := false, roe := false } } := by
  obtain ⟨-, -, -, tx, ctrl, div⟩ := legal.offsets_ne
  simp [memWrite, regAddr_inj, tx, ctrl, div]

end

/-- R234: the byte in bits [7:0] of a word whose other bits are free. -/
theorem extractLsb'_rxWord (v : Byte) (free : Word) : (v.setWidth 32 ||| free <<< 8).extractLsb' 0 8 = v := by
  ext i hi
  simp [hi, show i < 32 by omega]

/-- R238: the divisor register holds the divisor alone. -/
theorem writeDivisor_dev (d : Word) (s : State) :
    ∃ c, (writeDivisor d s).dev = { s.dev with cfg := some (c, d) } ∧ ∀ c0 d0, s.dev.cfg = some (c0, d0) → c = c0 := by
  cases cfg : s.dev.cfg with
  | none => exact ⟨Config.freeFormat s.draws, by simp only [writeDivisor, cfg], nofun⟩
  | some p =>
    refine ⟨p.1, by simp only [writeDivisor, cfg], fun c0 d0 h => ?_⟩
    cases h
    rfl

/-- R238: with the divisor written, the frame-format write is all that DevConfigure lacks. -/
theorem writeFormat_dev {s t : State} {c : LineConfig} {d : Word} (written : t.dev = { s.dev with cfg := some (c, d) })
    (cfg : LineConfig) : (writeFormat cfg t).dev = (devConfigure cfg d s).dev := by
  simp only [writeFormat, written, devConfigure]

/-- Settles O60: each access is the branch of `memRead` or `memWrite` that the register's offset selects. -/
theorem deviceOperationsAreRegisterAccesses : Obligations.DeviceOperationsAreRegisterAccesses := by
  intro s wf
  have legal := legalMap_of_admitted wf
  have rx := memRead_rx legal
  refine ⟨⟨_, _, memRead_status s, decodeStatus_statusWord legal _ _, rfl⟩, fun v t read => ?_, fun e stops => ?_,
    fun v => memWrite_tx v s, memWrite_ctrlWord legal, fun method => ?_, fun method => ?_, fun cfg d => ?_, ?_⟩
  · rw [read] at rx
    exact ⟨_, _, rx, extractLsb'_rxWord v _, rfl⟩
  · rw [stops] at rx
    exact rx
  · refine (memWrite_status legal).trans ?_
    simp [devClearErr_eq, method]
  · refine (memWrite_ctrl_reset legal (asksReset_or_resetBit legal method _)).trans ?_
    simp [devClearErr_eq, method, decodeCtrl_ctrlWord_reset legal]
  · obtain ⟨c, written, kept⟩ := writeDivisor_dev d s
    exact ⟨_, memWrite_div legal d, ⟨c, written, kept⟩, writeFormat_dev written cfg⟩
  · have control := memWrite_ctrlWord legal .zero
    rw [ctrlWord_zero] at control
    exact ⟨_, control, memWrite_status (s := devWriteCtrl .zero s) legal⟩

end Sys2Proof.Machine
end

section
/-!
PROOF. Exceptions (60_exceptions.md): the block a fault has halted (R252; 10_state.md R35) and the delivery of the interrupt
(R258, R261).
-/

namespace Sys2Proof.Machine

section
variable {s : State}

/-! A fault halts the block (R252). -/

theorem fgStep_halted (halted : s.fault ≠ 0#8) : fgStep s = .next s := if_pos (.inl halted)

theorem isrStep_halted (halted : s.fault ≠ 0#8) : isrStep s = .next s := if_pos halted

/-- R48: the HOST presents no command after a fault. -/
theorem hostStep_halted (halted : s.fault ≠ 0#8) (cmd opa opb : Word) (din : List Byte) :
    hostStep cmd opa opb din s = .refused .hostProtocol :=
  if_pos (by simp [halted])

theorem Quiet.fault {t : State} (q : Quiet s t) : t.fault = s.fault :=
  have ⟨_, _, _, fault, _⟩ := control_eq_iff.1 q.control
  fault

/-- R35: FG and the ISR take no step, the HOST is refused, and the events of DEV and CTR leave the fault alone. -/
theorem takeTurn_halted_fault (halted : s.fault ≠ 0#8) (e : Event) : AllNext (·.fault = s.fault) (takeTurn e s) := by
  cases e with
  | present cmd opa opb din =>
    simp only [takeTurn, hostStep_halted halted]
    exact allNext_refused _
  | fg =>
    simp only [takeTurn, fgStep_halted halted]
    exact allNext_next.2 rfl
  | isr =>
    simp only [takeTurn, isrStep_halted halted]
    exact allNext_next.2 rfl
  | rxArrive v p f => exact allNext_next.2 (rxArrive_quiet v p f s).fault
  | txLoad => exact allNext_next.2 (txLoad_quiet s).fault
  | txDone => exact allNext_next.2 (txDone_quiet s).fault
  | tick => exact allNext_next.2 (ctrTick_quiet s).fault

/-! Delivery (R258). -/

/-- R258: with the ISR inactive, delivery is allowed where the other six conditions hold. -/
theorem deliverable_iff (inactive : s.isr = .inactive) :
    deliverable s = true ↔
      s.inst.irq ≠ none ∧ s.irqc.registered = true ∧ s.irqc.enabled = true ∧ irqLevel s = true ∧ s.inCS = false ∧
        s.fault = 0#8 := by
  simp [deliverable, inactive, Option.isSome_iff_ne_none, and_assoc]

/-- R258: where delivery is not allowed, the inactive ISR stays so, and its turn changes nothing (log entry 9). -/
theorem isrStep_undeliverable (inactive : s.isr = .inactive) (blocked : ¬ deliverable s = true) :
    isrStep s = .next s := by
  by_cases halted : s.fault ≠ 0#8
  · exact isrStep_halted halted
  · simp only [isrStep, halted, inactive, blocked, if_false, Bool.false_eq_true]

end

/-! The statements. -/

/-- Settles O8: each agent's turn tests the fault first, and an event of DEV or CTR does not write it. -/
theorem faultHaltsTheBlock : Obligations.FaultHaltsTheBlock := by
  refine fun s rest wf halted => ⟨fun sched => ?_, fun sched => ?_, fun c a b d sched => ?_, fun t next => ?_⟩
  · exact (step_of_sched wf sched).trans (fgStep_halted halted)
  · exact (step_of_sched wf sched).trans (isrStep_halted halted)
  · exact (step_of_sched wf sched).trans (hostStep_halted (s := { s with sched := rest }) halted c a b d)
  · have turn : step s = takeTurn (nextTurn s).1 (nextTurn s).2 := if_pos wf
    have same : (nextTurn s).2.fault = s.fault := (nextTurn_quiet s).fault
    rw [turn] at next
    exact (takeTurn_halted_fault (same ▸ halted) _ t next).trans same

/-- Settles O9: the conditions of R258 are `deliverable`, by which the inactive ISR's turn is entry or nothing. -/
theorem interruptDelivery : Obligations.InterruptDelivery := by
  intro s rest wf inactive sched
  have turn : step s = isrStep { s with sched := rest } := step_of_sched wf sched
  have conditions := deliverable_iff (s := { s with sched := rest }) inactive
  exact ⟨fun met => turn.trans (isrStep_deliverable (conditions.2 met)),
    fun unmet => turn.trans (isrStep_undeliverable inactive (mt conditions.1 unmet))⟩

end Sys2Proof.Machine
end

section
/-!
PROOF. Power-on (70_reset_and_hazards.md R280): the values of the table, and the base case of the invariant. At power-on no
continuation is at a point, no buffer is initialized and no fault is raised, so most clauses of `Inv` have nothing to show.
-/

namespace Sys2Proof.Machine

/-- R24: a buffer at power-on holds no slot and is not initialized, so R22 asks nothing of its cursors. -/
theorem powerOn_buffer_ok (cap : Nat) : Buffer.powerOn.Ok cap where
  wf := powerOn_store_wf
  slots _ named := absurd named List.not_mem_nil
  live initialized := absurd initialized Bool.false_ne_true

/-- R280: the transport is UNCONSTRUCTED and no handler is installed. -/
theorem powerOn_dataOk {p : Params} (admitted : p.wf = true) : DataOk (State.powerOn p) where
  inst := admitted
  tx := powerOn_buffer_ok p.txCap
  rx := powerOn_buffer_ok p.rxCap
  rxq := Nat.zero_le _
  txq := Nat.zero_le _
  ier := rfl
  init constructed := absurd constructed (by simp [State.powerOn])

/-- R31, R280: the interrupt source is disabled, no handler is installed, and FG is outside every critical section. -/
theorem powerOn_irqOk (p : Params) : IrqOk (State.powerOn p) where
  absent _ := rfl
  outside _ _ := rfl
  inside _ inCS := absurd inCS Bool.false_ne_true
  kept _ _ inCS := absurd inCS Bool.false_ne_true
  ready constructed := absurd constructed Lifecycle.noConfusion
  unready _ := .inl rfl

/-- The base case of the invariant, for every admitted instance; the step case is `stepKeepsInv`. -/
theorem powerOn_inv {p : Params} (admitted : p.wf = true) : Inv (State.powerOn p) :=
  { powerOn_dataOk admitted with
    busy := iff_of_false Bool.false_ne_true (not_not_intro rfl)
    section_ := fun _ => rfl
    halted := fun raised => absurd rfl raised
    code := Nat.zero_le _
    status := .inl (Nat.zero_le _)
    fg := trivial
    isr := trivial
    irq := powerOn_irqOk p }

/-! The statements. -/

/-- Settles O14: each value of the table is the field of `State.powerOn` as it is defined. -/
theorem powerOnState : Obligations.PowerOnState := fun _ =>
  ⟨rfl, rfl, rfl, rfl, rfl, rfl, rfl, rfl, rfl, rfl, rfl, rfl, rfl, rfl, rfl⟩

/-- Settles O15: the base case of the invariant, and the instance P0 of `State.reset` is admitted. -/
theorem powerOnMeetsInv : Obligations.PowerOnMeetsInv :=
  have reset_admitted : Params.p0.wf = true := by decide
  ⟨fun _ admitted => powerOn_inv admitted, powerOn_inv reset_admitted⟩

end Sys2Proof.Machine
end
